-- ==== Sys2Proof/Word.lean ====
section
/-! DEFINITION. The part's smallest words and fixed sets of names: bytes, ports, lines, pollutants, reagents, and the
containers that hold one thing for each of them. -/

namespace Sys2Proof

/-- A byte on the segment link. -/
abbrev Byte := BitVec 8

/-- The two ports (00_scope.md, Names). -/
inductive PortId where
  | field
  | supervisor
deriving DecidableEq, Repr

/-- The two grate lines. -/
inductive Line where
  | one
  | two
deriving DecidableEq, Repr

/-- The six pollutants, in the order the spec lists them. -/
inductive Pollutant where
  | dust
  | hcl
  | so2
  | nox
  | co
  | toc
deriving DecidableEq, Repr

/-- The three reagent roles. -/
inductive Reagent where
  | lime
  | carbon
  | reagent
deriving DecidableEq, Repr

/-- The pollutants in the order of every close, DUST to TOC (R123). -/
def Pollutant.all : List Pollutant := [.dust, .hcl, .so2, .nox, .co, .toc]

/-- The reagents in the order of the saturation test. -/
def Reagent.all : List Reagent := [.lime, .carbon, .reagent]

/-- One thing for each port. -/
structure PerPort (α : Type) where
  field : α
  supervisor : α
deriving DecidableEq, Repr

/-- One thing for each line. -/
structure PerLine (α : Type) where
  one : α
  two : α
deriving DecidableEq, Repr

/-- One thing for each pollutant. -/
structure PerPollutant (α : Type) where
  dust : α
  hcl : α
  so2 : α
  nox : α
  co : α
  toc : α
deriving DecidableEq, Repr

/-- One thing for each reagent. -/
structure PerReagent (α : Type) where
  lime : α
  carbon : α
  reagent : α
deriving DecidableEq, Repr

namespace PerPort
variable {α : Type}
def get (x : PerPort α) : PortId → α
  | .field => x.field
  | .supervisor => x.supervisor
def set (x : PerPort α) (p : PortId) (a : α) : PerPort α :=
  match p with
  | .field => { x with field := a }
  | .supervisor => { x with supervisor := a }
end PerPort

namespace PerLine
variable {α : Type}
def get (x : PerLine α) : Line → α
  | .one => x.one
  | .two => x.two
def set (x : PerLine α) (l : Line) (a : α) : PerLine α :=
  match l with
  | .one => { x with one := a }
  | .two => { x with two := a }
end PerLine

namespace PerPollutant
variable {α : Type}
def get (x : PerPollutant α) : Pollutant → α
  | .dust => x.dust
  | .hcl => x.hcl
  | .so2 => x.so2
  | .nox => x.nox
  | .co => x.co
  | .toc => x.toc
def set (x : PerPollutant α) (p : Pollutant) (a : α) : PerPollutant α :=
  match p with
  | .dust => { x with dust := a }
  | .hcl => { x with hcl := a }
  | .so2 => { x with so2 := a }
  | .nox => { x with nox := a }
  | .co => { x with co := a }
  | .toc => { x with toc := a }
def all (a : α) : PerPollutant α := ⟨a, a, a, a, a, a⟩
end PerPollutant

namespace PerReagent
variable {α : Type}
def get (x : PerReagent α) : Reagent → α
  | .lime => x.lime
  | .carbon => x.carbon
  | .reagent => x.reagent
def set (x : PerReagent α) (r : Reagent) (a : α) : PerReagent α :=
  match r with
  | .lime => { x with lime := a }
  | .carbon => { x with carbon := a }
  | .reagent => { x with reagent := a }
end PerReagent

end Sys2Proof
end

