-- ==== Sys2Proof/Config.lean ====
section
/-! DEFINITION. What is fixed at manufacture and the free values: constants with no body, so that nothing can be proved
about which value they have. -/

namespace Sys2Proof

/-- The word the part is given at manufacture (log 2). DESIGN CHOICE. Safe. -/
opaque Config.manufactured : BitVec 32

/-- The identity (R12): any word whose most significant byte is not 0xA5. Every identity the spec allows is one that
`Config.manufactured` can be; a word it forbids stands for one with another first byte. -/
def Config.identity : BitVec 32 :=
  if Config.manufactured.extractLsb' 24 8 = 0xA5#8 then Config.manufactured ^^^ 0x80000000#32
  else Config.manufactured

/-- The n-th choice among orders the spec leaves open, before it is brought into range (log 5). DESIGN CHOICE. Safe. -/
opaque Config.freeChoice : Nat → Nat

/-- The value bytes that a table record shows for a value that is absent: which the spec does not state (log 16).
The arguments are the free-value counter, the table code, the index and the place of the field. DESIGN CHOICE. Safe. -/
opaque Config.absentField : Nat → Nat → Nat → Nat → BitVec 16

end Sys2Proof
end

