-- ==== Sys2Proof/Syntax.lean ====
section
/-! DEFINITION. The commands of the part: one constructor for each row of spec/opcode_table.json. -/

namespace Sys2Proof

/-- The units that take a second tick (R41, the table before it). -/
inductive TickUnit where
  | feed (l : Line)
  | averager (l : Line)
  | dispatch
  | runback
  | limits
deriving DecidableEq, Repr

/-- The units that take a sweep (R42). -/
inductive SweepUnit where
  | channels
  | trip (l : Line)
deriving DecidableEq, Repr

/-- All units that take a second tick. -/
def TickUnit.all : List TickUnit :=
  [.feed .one, .feed .two, .averager .one, .averager .two, .dispatch, .runback, .limits]

/-- All units that take a sweep. -/
def SweepUnit.all : List SweepUnit := [.channels, .trip .one, .trip .two]

/-- The commands. The executions of management requests carry no operands of their own: the request frame at the head
of the request queue holds them (R185, R186; log 8). -/
inductive Instr where
  /-- POWER_ON, with the levels of the eight straps, STN0 the least significant bit (R17). -/
  | powerOn (straps : BitVec 8)
  /-- RESET_N_ASSERT. -/
  | resetNAssert
  /-- LINE_RESET: the release of RESET_N, with the levels of the straps (R17). -/
  | lineReset (straps : BitVec 8)
  /-- LINK_DOWN on a port. -/
  | linkDown (p : PortId)
  /-- LINK_UP on a port. -/
  | linkUp (p : PortId)
  /-- FRAME_ARRIVAL: the whole frame's bytes, on a port. -/
  | frameArrival (p : PortId) (bytes : List Byte)
  /-- TRANSMISSION_START on a port. -/
  | transmissionStart (p : PortId)
  /-- TRANSMISSION_COMPLETION on a port. -/
  | transmissionCompletion (p : PortId)
  /-- SECOND_TICK: the units that take the tick within this step, in the order in which they take it (log 6). -/
  | secondTick (order : List TickUnit)
  /-- STROKE_EXPIRY: a line's feed admission unit takes its owed tick, at which a queued stroke expires. -/
  | strokeExpiry (l : Line)
  /-- STROKE_TIMEOUT: a line's feed admission unit takes its owed tick, at which the stroke in flight times out. -/
  | strokeTimeout (l : Line)
  /-- SETTLE_END: a line's feed admission unit takes its owed tick, at which the settle count reaches 0. -/
  | settleEnd (l : Line)
  /-- ORDER_ACTIVATION: the dispatch unit takes its owed tick, at which an order is due. -/
  | orderActivation
  /-- RUNBACK_HOLD_EXPIRY: the runback unit takes its owed tick, at which the hold count reaches 0. -/
  | runbackHoldExpiry
  /-- INTEGRITY_SCRUB: the limit table takes its owed tick, at which a scrub falls. -/
  | integrityScrub
  /-- STORAGE_FAULT: the stored check code becomes this word (R74). -/
  | storageFault (code : BitVec 16)
  /-- BOUNDARY_CLOSE: a line's averager takes its owed tick, at which its boundary is reached. -/
  | boundaryClose (l : Line)
  /-- SWEEP: the units that take the sweep within this step, in order (log 6). -/
  | sweep (order : List SweepUnit)
  /-- CHANNEL_LOST: the channel supervisor takes its owed checks up to this channel, which is lost at its check. -/
  | channelLost (c : Nat)
  /-- DRUM_GRACE_EXPIRY: a line's trip unit takes its owed sweep, at which the grace count reaches DRUM_GRACE. -/
  | drumGraceExpiry (l : Line)
  | unknownRequest
  | readTable
  | writeEntryMatch
  | pointInsert
  | pointUpdate
  | writeEntryActuators
  | writeEntryBindings
  | writeEntryFeedSettings
  | writeEntryRunback
  | writeEntryDispatch
  | writeEntryNotices
  | writeEntryReadOnly
  | deleteEntryPoints
  | deleteEntryActuators
  | deleteEntryRefused
  | setLimit
  | setOverride
  | clearOverride
  | freeze
  | setTime
  | setChannelService
  | rearmChannel
  | enableRam
  | holdFeed
  | clearHold
  | trip
  | tripReset
  | stopRunback
  | newYear
  | readStatus
  | readCapture
  | releaseCapture
  | clearAttention
  | clearPortErrors
  | setNotices
  | restart
deriving DecidableEq, Repr

end Sys2Proof
end

