-- ==== Sys2Proof/WellFormed.lean ====
section
/-! DEFINITION. Which commands are well formed: the operands that an event of the part can have. -/

namespace Sys2Proof

/-- An arrival is the event of a last byte (R1), so there is one; no unit takes one tick or one sweep twice (R41, R42);
a channel index is below 96 (R45). Every other command is well formed whatever its operands. -/
def Instr.wellFormed : Instr → Bool
  | .frameArrival _ bytes => bytes ≠ []
  | .secondTick order => order.Nodup
  | .sweep order => order.Nodup
  | .channelLost c => c < 96
  | .powerOn _ => true
  | .resetNAssert => true
  | .lineReset _ => true
  | .linkDown _ => true
  | .linkUp _ => true
  | .transmissionStart _ => true
  | .transmissionCompletion _ => true
  | .strokeExpiry _ => true
  | .strokeTimeout _ => true
  | .settleEnd _ => true
  | .orderActivation => true
  | .runbackHoldExpiry => true
  | .integrityScrub => true
  | .storageFault _ => true
  | .boundaryClose _ => true
  | .drumGraceExpiry _ => true
  | .unknownRequest => true
  | .readTable => true
  | .writeEntryMatch => true
  | .pointInsert => true
  | .pointUpdate => true
  | .writeEntryActuators => true
  | .writeEntryBindings => true
  | .writeEntryFeedSettings => true
  | .writeEntryRunback => true
  | .writeEntryDispatch => true
  | .writeEntryNotices => true
  | .writeEntryReadOnly => true
  | .deleteEntryPoints => true
  | .deleteEntryActuators => true
  | .deleteEntryRefused => true
  | .setLimit => true
  | .setOverride => true
  | .clearOverride => true
  | .freeze => true
  | .setTime => true
  | .setChannelService => true
  | .rearmChannel => true
  | .enableRam => true
  | .holdFeed => true
  | .clearHold => true
  | .trip => true
  | .tripReset => true
  | .stopRunback => true
  | .newYear => true
  | .readStatus => true
  | .readCapture => true
  | .releaseCapture => true
  | .clearAttention => true
  | .clearPortErrors => true
  | .setNotices => true
  | .restart => true

end Sys2Proof
end

