-- ==== Sys2Proof/Decode.lean ====
section
/-! DEFINITION. The command a word spells by the table's bits. No row of spec/opcode_table.json gives bits: every row's
list of fields is empty, so no word spells a command. -/

namespace Sys2Proof

/-- The command spelled by the `nbits` bits of `w`: none, since the table gives no row any bits. -/
def decodeTableWord (_nbits _w : Nat) : Option Instr := none

end Sys2Proof
end

