-- ==== Sys2Proof/Machine/State.lean ====
section
/-! DEFINITION. Everything the spec gives the part, as plain data; the two ways a command could stop; the state after
POWER_ON. Signed quantities are `Int`, counts and unsigned quantities `Nat` with the saturation or wrap written where they
change, words that are seen as bits are bit vectors. -/

namespace Sys2Proof.Machine

/-! ### Segment frames (01_segment_frames.md) -/

/-- A frame the part holds (section 1.1). LEN is the payload's length and CHECK is always the CRC of the other bytes: a
frame for which they are not is dropped at the port (R2, R3), and every frame the part builds or rewrites gets a fresh
CHECK (R3). DEDUCED, safe (log 13). -/
structure Frame where
  dest : Byte
  src : Byte
  kind : Byte
  seq : Byte
  flags : Byte
  payload : List Byte
deriving DecidableEq, Repr

/-- A waiting frame, with the mark by which the guard knows the frame that set a last forwarded value (R89, log 14). -/
structure Waiting where
  mark : Nat
  frame : Frame
deriving DecidableEq, Repr

/-- The port error record (section 1.2), each count 0–65535. -/
structure PortErrors where
  length : Nat
  check : Nat
  overruns : Nat
  strays : Nat
deriving DecidableEq, Repr

/-- What each port holds: link, transmitter, error record, and the three queues its arbiter chooses from (R33).
`transit` is the transit queue that leads to this port: the downward one for FIELD, the upward one for SUPERVISOR. -/
structure Port where
  linkUp : Bool
  transmitting : Option Frame
  errors : PortErrors
  urgent : List Waiting
  routine : List Waiting
  transit : List Waiting
  credit : Nat
  seq : Nat
deriving DecidableEq, Repr

/-- Priority of an originated frame (R28). -/
inductive Priority where
  | urgent
  | routine
deriving DecidableEq, Repr

/-! ### Match table and requests (02_frame_path.md) -/

inductive Direction where
  | up
  | down
  | either
deriving DecidableEq, Repr

inductive Action where
  | forward
  | drop
  | samples
  | guard
deriving DecidableEq, Repr

/-- A match slot (section 2.2). -/
structure MatchSlot where
  enable : Bool
  direction : Direction
  minLength : Nat
  mask : List Byte
  value : List Byte
  action : Action
  capture : Bool
deriving DecidableEq, Repr

/-- A queued request: the frame whole, and the plant time of its arrival (R185). -/
structure Request where
  frame : Frame
  arrived : Nat
deriving DecidableEq, Repr

/-! ### Channels and bindings (03_plant_clock_and_channels.md) -/

inductive ChannelClass where
  | temperature
  | oxygen
  | pollutant
  | steamFlow
  | drumLevel
  | position
  | status
  | generic
deriving DecidableEq, Repr

/-- The states of a channel that holds a point; a channel that holds none is UNSET. -/
inductive ChannelState where
  | warming
  | live
  | stale
  | failedOver
  | calibrating
  | outOfService
deriving DecidableEq, Repr

inductive Quality where
  | good
  | bad
  | calibrating
deriving DecidableEq, Repr

/-- A channel record that is not UNSET (section 3.2). -/
structure Channel where
  point : Nat
  cls : ChannelClass
  line : Option Line
  warmCount : Nat
  window : Nat
  fallback : Option Nat
  state : ChannelState
  own : Option Int
  quality : Quality
  lastTime : Nat
  seen : Bool
  miss : Nat
  good : Nat
deriving DecidableEq, Repr

/-- The plant binding (section 3.6). -/
structure PlantBinding where
  turbineStatus : Option Nat
  bypassStatus : Option Nat
  turbineLoad : Option Nat
deriving DecidableEq, Repr

/-- A line binding (section 3.6). The ram list keeps all six bytes as written (R58). -/
structure LineBinding where
  furnaceTemp : Option Nat
  o2 : Option Nat
  steamFlow : Option Nat
  drumLevel : Option Nat
  pollutant : PerPollutant (Option Nat)
  feedBound : Bool
  feedGroup : Nat
  auxBurner : Option Nat
  ramCount : Nat
  ramList : List Nat
  startRam : Nat
deriving DecidableEq, Repr

/-! ### Limit table (04_limit_table_and_commissioning.md) -/

inductive Mode where
  | commission
  | operate
deriving DecidableEq, Repr

/-- A limit entry (R63). -/
structure LimitEntry where
  commissioned : Int
  override : Option Int
deriving DecidableEq, Repr

/-- The limit table: 52 entries, mode, check code, scrub count. -/
structure LimitTable where
  entries : List LimitEntry
  mode : Mode
  checkCode : BitVec 16
  scrubCount : Nat
deriving DecidableEq, Repr

/-! ### Actuator table (05_command_guard_and_actuator_table.md) -/

inductive Role where
  | feedGroup
  | feedRam
  | grateZone
  | air
  | lime
  | carbon
  | reagent
  | turbineLoad
  | bypass
  | auxBurner
  | generic
deriving DecidableEq, Repr

inductive RamState where
  | inService
  | faulted
  | outOfService
deriving DecidableEq, Repr

/-- An actuator record (section 5.1). `setter` is the mark of the waiting frame that set the last forwarded value
(R89, log 14). -/
structure Actuator where
  number : Nat
  role : Role
  line : Option Line
  min : Int
  max : Int
  maxStep : Nat
  last : Option Int
  setter : Option Nat
  position : Option Nat
  ram : RamState
  floor0 : Int
  floor1 : Int
  floor2 : Int
deriving DecidableEq, Repr

/-! ### Feed admission (06_grate_feed_admission.md) -/

/-- A stroke entry. -/
structure Stroke where
  length : Nat
  source : Byte
  seq : Byte
  deadline : Nat
deriving DecidableEq, Repr

/-- The stroke engine; IN_STROKE carries the in-flight record (ram entry index, target). -/
inductive Engine where
  | ready
  | inStroke (ram : Nat) (target : Nat)
  | settling
deriving DecidableEq, Repr

inductive HoldCause where
  | manual
  | tripped
  | furnaceCold
  | noSink
  | emission
  | noRam
deriving DecidableEq, Repr

/-- A hold set (section 6.5). -/
structure HoldSet where
  manual : Bool
  tripped : Bool
  furnaceCold : Bool
  noSink : Bool
  emission : Bool
  noRam : Bool
deriving DecidableEq, Repr

inductive EmissionReason where
  | episodeCap
  | budget
  | saturation
deriving DecidableEq, Repr

/-- A set of EMISSION reasons (R113). -/
structure ReasonSet where
  episodeCap : Bool
  budget : Bool
  saturation : Bool
deriving DecidableEq, Repr

/-- A line's feed admission unit. -/
structure Feed where
  queue : List Stroke
  bed : Nat
  engine : Engine
  timeoutCount : Nat
  settleCount : Nat
  rotation : Nat
  holds : HoldSet
  reasons : ReasonSet
  ttl : Nat
  timeout : Nat
  settle : Nat
deriving DecidableEq, Repr

/-! ### Emission averaging (07_emission_averaging_and_reagent_dosing.md) -/

/-- A slot of the half-hour ring. -/
inductive RingSlot where
  | empty
  | invalid
  | value (v : Nat)
deriving DecidableEq, Repr

/-- What an averager holds for one pollutant. `means` has three positions, `none` being INVALID; `ring` has 48 slots. -/
structure PollutantState where
  sum : Nat
  valid : Nat
  means : List (Option Nat)
  ring : List RingSlot
  exceed : Nat
  openEpisode : Option Nat
  band : Fin 3
deriving DecidableEq, Repr

/-- A line's emission averager. -/
structure Averager where
  pollutants : PerPollutant PollutantState
  nextBoundary : Nat
  minutes : Nat
  saturation : PerReagent Nat
deriving DecidableEq, Repr

inductive LogKind where
  | halfHour
  | daily
deriving DecidableEq, Repr

inductive LogStatus where
  | open
  | closed
  | closedByReset
deriving DecidableEq, Repr

/-- An entry of the exceedance log (R130); `finish` is absent while OPEN. -/
structure LogEntry where
  number : Nat
  line : Line
  pollutant : Pollutant
  kind : LogKind
  status : LogStatus
  start : Nat
  finish : Option Nat
  peak : Nat
  halfHours : Nat
deriving DecidableEq, Repr

/-! ### Dispatch (08_steam_header_and_turbine_dispatch.md) -/

inductive Sink where
  | none
  | limited
  | full
deriving DecidableEq, Repr

/-- A queued order (R146). -/
structure Order where
  number : Nat
  effective : Nat
  target : Nat
  rate : Nat
deriving DecidableEq, Repr

/-- The dispatch unit. `online` is whether the turbine was ONLINE at the last turbine status update (R151, log 21). -/
structure DispatchUnit where
  sink : Sink
  steamLoad : Nat
  orders : List Order
  target : Nat
  rate : Nat
  ramped : Nat
  allowed : Nat
  cap : Option Nat
  gateway : Nat
  follow : Bool
  online : Bool
deriving DecidableEq, Repr

/-! ### Runback and trips (09_runback_and_line_trips.md) -/

inductive Envelope where
  | idle
  | active
  | releasing
deriving DecidableEq, Repr

/-- The runback unit. -/
structure Runback where
  lineTrip : PerLine Bool
  drum : PerLine Bool
  envelope : Envelope
  cap : Option Nat
  holdCount : Nat
  holdRunning : Bool
  depth : Nat
  floor : Nat
  hold : Nat
  releaseSelect : Nat
deriving DecidableEq, Repr

inductive TripCause where
  | restart
  | integrity
  | drumLowLow
  | manual
deriving DecidableEq, Repr

/-- A trip cause set (R167). -/
structure TripSet where
  restart : Bool
  integrity : Bool
  drumLowLow : Bool
  manual : Bool
deriving DecidableEq, Repr

/-- A line's trip unit. -/
structure TripUnit where
  causes : TripSet
  grace : Nat
deriving DecidableEq, Repr

/-! ### Capture and attention (10_evidence_capture_and_attention.md) -/

/-- The 28 capture sources. -/
inductive CaptureSource where
  | slot (n : Fin 24)
  | clamp
  | withheld
  | tripFrame
  | confirmFail
deriving DecidableEq, Repr

inductive Disposition where
  | forwarded
  | rewritten
  | absorbed
  | withheld
  | dropped
deriving DecidableEq, Repr

/-- A capture record, which is also what an offer carries (section 10.1, R174). -/
structure CaptureRecord where
  source : CaptureSource
  port : PortId
  time : Nat
  disposition : Disposition
  bytes : List Byte
deriving DecidableEq, Repr

/-- The capture store: eight slots, the arm state of each of the 28 sources by code, and the missed count. -/
structure CaptureStore where
  slots : List (Option CaptureRecord)
  armed : List Bool
  missed : Nat
deriving DecidableEq, Repr

/-- The 15 attention causes, in the order of their codes. -/
inductive Cause where
  | tripOne
  | tripTwo
  | limitFault
  | feedHoldEmissionOne
  | feedHoldEmissionTwo
  | originLoss
  | channelLost
  | strokeTimeout
  | strokeRefused
  | episodeOpened
  | dailyExceeded
  | captureTaken
  | captureMissed
  | portError
  | orderRefused
deriving DecidableEq, Repr

/-- The event that last set a cause (R179). -/
structure HeldEvent where
  line : Option Line
  time : Nat
  detail : Nat
deriving DecidableEq, Repr

/-- What the attention unit holds for a cause. -/
structure CauseRecord where
  status : Bool
  enable : Bool
  noticed : Bool
  held : Option HeldEvent
deriving DecidableEq, Repr

/-- The attention unit: a record for each cause in code order, and the notice station (0 for none). -/
structure Attention where
  causes : List CauseRecord
  station : Nat
deriving DecidableEq, Repr

/-! ### The whole part -/

/-- The state of the part, and the queue of the commands that wait (log 3). -/
structure State where
  /-- RESET_N is held asserted. -/
  resetAsserted : Bool
  /-- The identity fixed at manufacture (R12). -/
  identity : BitVec 32
  /-- The own station (R17). -/
  ownStation : Byte
  /-- The two ports with their queues (R26, R28, R33, R35). -/
  ports : PerPort Port
  /-- The match table, 24 slots (R21). -/
  matchTable : List MatchSlot
  /-- The reservation in the SUPERVISOR ROUTINE origin queue (R32). -/
  reservation : Bool
  /-- The request queue, oldest first (R185). -/
  requests : List Request
  /-- Plant time (R40). -/
  plantTime : Nat
  /-- The point map: point number and channel index, rising by point (section 3.2). -/
  points : List (Nat × Nat)
  /-- The 96 channel records, `none` being UNSET. -/
  channels : List (Option Channel)
  plantBinding : PlantBinding
  lineBinding : PerLine LineBinding
  /-- The two diagnostic counts of R48. -/
  unmapped : Nat
  malformed : Nat
  limits : LimitTable
  /-- The actuator table, 48 entries (R78). -/
  actuators : List (Option Actuator)
  /-- The two counts of R88. -/
  withheld : Nat
  unguarded : Nat
  feed : PerLine Feed
  averager : PerLine Averager
  /-- The exceedance log, earliest opened first, and the next entry number (R129). -/
  log : List LogEntry
  nextEntry : Nat
  dispatch : DispatchUnit
  runback : Runback
  trip : PerLine TripUnit
  capture : CaptureStore
  attention : Attention
  /-- The model's own: the units that have not yet taken the present second tick, or sweep, and the channel at which
  an owed sweep of the channels goes on (log 6). -/
  owedTick : List TickUnit
  owedSweep : List SweepUnit
  sweepNext : Nat
  /-- The model's own: TRIP_FRAME offers owed by the SAMPLE frame being taken (R168, log 33). -/
  tripOffers : Nat
  /-- The model's own: the mark of the next frame that enters a queue (log 14). -/
  nextMark : Nat
  /-- The model's own: the choices among open orders, the scripted ones first, then free ones by count (log 5). -/
  script : List Nat
  freeCount : Nat
  /-- The commands that wait, first in first out. -/
  pending : List Instr
deriving DecidableEq, Repr

/-- Nothing stops the part: the spec names no condition under which it stops, and every error is an effect on its state. -/
inductive Fault where
deriving DecidableEq, Repr

/-- Why a command has no meaning. -/
inductive Refusal where
  /-- Raised by an arm of `exec` that rejects its command by name; no arm of this model does. Safe: the machine stops. -/
  | notModelled (mnemonic : String)
deriving DecidableEq, Repr

/-! ### The state after POWER_ON -/

/-- A match slot after POWER_ON and LINE (R22). -/
def MatchSlot.initial : MatchSlot :=
  ⟨false, .up, 8, List.replicate 24 0, List.replicate 24 0, .forward, false⟩

/-- A port after POWER_ON and LINE (R5, R28, R33, R35, R38). -/
def Port.initial : Port := ⟨false, none, ⟨0, 0, 0, 0⟩, [], [], [], 0, 0⟩

/-- A line binding after POWER_ON and LINE (R61). -/
def LineBinding.initial : LineBinding :=
  ⟨none, none, none, none, PerPollutant.all none, false, 0, none, 0, List.replicate 6 255, 0⟩

/-- A feed admission unit after POWER_ON and LINE, before EMISSION is judged (R117, R118). -/
def Feed.initial : Feed :=
  ⟨[], 0, .ready, 0, 0, 0, ⟨false, true, true, true, false, true⟩, ⟨false, false, false⟩, 60, 10, 5⟩

/-- A pollutant's averaging state after POWER_ON and LINE (R138). -/
def PollutantState.initial : PollutantState :=
  ⟨0, 0, [none, none, none], List.replicate 48 .empty, 0, none, 0⟩

/-- An averager after POWER_ON (R138). -/
def Averager.initial : Averager := ⟨PerPollutant.all PollutantState.initial, 600, 0, ⟨0, 0, 0⟩⟩

/-- The dispatch unit after POWER_ON and LINE, holding the floor cap of R173 with its floor of 0 (R157). -/
def DispatchUnit.initial : DispatchUnit := ⟨.none, 0, [], 0, 0, 0, 0, some 0, 0, false, false⟩

/-- The runback unit after POWER_ON and LINE: both LINE_TRIP conditions have arisen (R161, R173). The hold count, which is
not running, is 0 (DESIGN CHOICE, safe, log 37). -/
def Runback.initial : Runback :=
  ⟨⟨true, true⟩, ⟨false, false⟩, .active, some 0, 0, false, 100, 0, 60, 1⟩

/-- A trip unit after every reset (R172). -/
def TripUnit.initial : TripUnit := ⟨⟨true, false, false, false⟩, 0⟩

/-- The capture store after POWER_ON and LINE (R178). -/
def CaptureStore.initial : CaptureStore := ⟨List.replicate 8 none, List.replicate 28 true, 0⟩

/-- A cause that is clear, off and unnoticed. -/
def CauseRecord.clear : CauseRecord := ⟨false, false, false, none⟩

/-- The attention unit after POWER_ON and LINE, once RESTART has set TRIP_1 and TRIP_2 (R172, R184). -/
def Attention.initial : Attention :=
  ⟨[⟨true, false, false, some ⟨some .one, 0, 1⟩⟩, ⟨true, false, false, some ⟨some .two, 0, 1⟩⟩] ++
    List.replicate 13 CauseRecord.clear, 0⟩

/-- What POWER_ON and LINE have in common: every block's state after them, before EMISSION is judged (R118). -/
def State.afterReset : State where
  resetAsserted := false
  identity := Config.identity
  ownStation := 250
  ports := ⟨Port.initial, Port.initial⟩
  matchTable := List.replicate 24 MatchSlot.initial
  reservation := false
  requests := []
  plantTime := 0
  points := []
  channels := List.replicate 96 none
  plantBinding := ⟨none, none, none⟩
  lineBinding := ⟨LineBinding.initial, LineBinding.initial⟩
  unmapped := 0
  malformed := 0
  limits := ⟨List.replicate 52 ⟨0, none⟩, .commission, 0, 0⟩
  actuators := List.replicate 48 none
  withheld := 0
  unguarded := 0
  feed := ⟨Feed.initial, Feed.initial⟩
  averager := ⟨Averager.initial, Averager.initial⟩
  log := []
  nextEntry := 1
  dispatch := DispatchUnit.initial
  runback := Runback.initial
  trip := ⟨TripUnit.initial, TripUnit.initial⟩
  capture := CaptureStore.initial
  attention := Attention.initial
  owedTick := []
  owedSweep := []
  sweepNext := 0
  tripOffers := 0
  nextMark := 0
  script := []
  freeCount := 0
  pending := []

/-- A feed admission unit after POWER_ON: the minutes used of 0 stand at the effective BUDGET of 0, so EMISSION is held
with reason BUDGET (R118, R138). -/
def Feed.afterPowerOn : Feed :=
  { Feed.initial with holds := ⟨false, true, true, true, true, true⟩, reasons := ⟨false, true, false⟩ }

/-- The attention unit after POWER_ON: FEED_HOLD_EMISSION_1 and _2 are set as well, with detail BUDGET (R118, R184). -/
def Attention.afterPowerOn : Attention :=
  ⟨[⟨true, false, false, some ⟨some .one, 0, 1⟩⟩, ⟨true, false, false, some ⟨some .two, 0, 1⟩⟩, CauseRecord.clear,
    ⟨true, false, false, some ⟨some .one, 0, 2⟩⟩, ⟨true, false, false, some ⟨some .two, 0, 2⟩⟩] ++
    List.replicate 10 CauseRecord.clear, 0⟩

/-- The machine right after reset: the state after POWER_ON, with straps that read 0 (own station 250: R17; DESIGN
CHOICE, unsafe, log 1). -/
def State.reset : State :=
  { State.afterReset with
    feed := ⟨Feed.afterPowerOn, Feed.afterPowerOn⟩
    attention := Attention.afterPowerOn }

end Sys2Proof.Machine
end

