-- ==== Sys2Proof/Machine/Operands.lean ====
section
/-! DEFINITION. Byte layouts: byte order, the CRC, frames as bytes, command, order and notice records, and the codes of
every coded field (01_segment_frames.md). -/

namespace Sys2Proof

/-! ### Codes of ports, lines and pollutants (sections 1.4 and 1.6) -/

def PortId.code : PortId → Nat
  | .field => 0
  | .supervisor => 1

/-- A line's number. -/
def Line.code : Line → Nat
  | .one => 1
  | .two => 2

def Pollutant.code : Pollutant → Nat
  | .dust => 1
  | .hcl => 2
  | .so2 => 3
  | .nox => 4
  | .co => 5
  | .toc => 6

/-- The pollutant of a position 0 to 5, TOC beyond. -/
def Pollutant.ofPosition (n : Nat) : Pollutant :=
  match n with
  | 0 => .dust
  | 1 => .hcl
  | 2 => .so2
  | 3 => .nox
  | 4 => .co
  | _ => .toc

end Sys2Proof

namespace Sys2Proof.Machine

/-! ### Byte order: big-endian, signed fields in two's complement -/

/-- A quantity as one byte. -/
def u8 (n : Nat) : Byte := BitVec.ofNat 8 n

/-- An unsigned quantity as two bytes, most significant first. -/
def be16 (n : Nat) : List Byte := [u8 (n / 256), u8 n]

/-- An unsigned quantity as four bytes, most significant first. -/
def be32 (n : Nat) : List Byte := [u8 (n / 16777216), u8 (n / 65536), u8 (n / 256), u8 n]

/-- A signed quantity as two bytes in two's complement. -/
def sbe16 (v : Int) : List Byte := be16 (BitVec.ofInt 16 v).toNat

/-- The byte at a position, 0 beyond the end. -/
def byteAt (bs : List Byte) (i : Nat) : Nat := (bs.getD i 0).toNat

/-- The unsigned two-byte field at a position. -/
def u16At (bs : List Byte) (i : Nat) : Nat := byteAt bs i * 256 + byteAt bs (i + 1)

/-- The signed two-byte field at a position. -/
def s16At (bs : List Byte) (i : Nat) : Int := (BitVec.ofNat 16 (u16At bs i)).toInt

/-- The unsigned four-byte field at a position. -/
def u32At (bs : List Byte) (i : Nat) : Nat := u16At bs i * 65536 + u16At bs (i + 2)

/-! ### The check value (R3) -/

/-- One bit of the CRC-16 with generator 0x1021, most significant bit first. -/
def crcBit (c : BitVec 16) : BitVec 16 := if c.msb then (c <<< 1) ^^^ 0x1021#16 else c <<< 1

/-- One byte of the CRC. -/
def crcByte (c : BitVec 16) (b : Byte) : BitVec 16 :=
  crcBit (crcBit (crcBit (crcBit (crcBit (crcBit (crcBit (crcBit (c ^^^ (b.zeroExtend 16 <<< 8)))))))))

/-- The CRC of R3: initial value 0xFFFF, no reflection, no final inversion. -/
def crc (bs : List Byte) : BitVec 16 := bs.foldl crcByte 0xFFFF#16

/-! ### Frames (section 1.1) -/

/-- The bytes the CRC covers: offsets 0 to 5 + LEN. -/
def Frame.body (f : Frame) : List Byte :=
  [f.dest, f.src, f.kind, f.seq, f.flags, u8 f.payload.length] ++ f.payload

/-- The frame as it stands on the link, CHECK with its high byte first. -/
def Frame.bytes (f : Frame) : List Byte := f.body ++ be16 (crc f.body).toNat

/-- The frame's size in bytes. -/
def Frame.size (f : Frame) : Nat := f.payload.length + 8

/-- The length check of R2: whether it passes. -/
def lengthCheck (bs : List Byte) : Bool :=
  8 ≤ bs.length && byteAt bs 5 ≤ 55 && bs.length == byteAt bs 5 + 8 && byteAt bs 0 != 0

/-- The check value test of R3, on bytes that pass the length check. -/
def checkTest (bs : List Byte) : Bool :=
  crc (bs.take (bs.length - 2)) == BitVec.ofNat 16 (u16At bs (bs.length - 2))

/-- The fields of bytes that pass both checks. -/
def Frame.parse (bs : List Byte) : Frame where
  dest := bs.getD 0 0
  src := bs.getD 1 0
  kind := bs.getD 2 0
  seq := bs.getD 3 0
  flags := bs.getD 4 0
  payload := (bs.drop 6).take (bs.length - 8)

def kindSample : Byte := 0x10#8
def kindCommand : Byte := 0x20#8
def kindOrder : Byte := 0x30#8
def kindOrderAck : Byte := 0x31#8
def kindManage : Byte := 0x40#8
def kindReply : Byte := 0x41#8
def kindNotice : Byte := 0x50#8

/-- REWRITTEN set, the other seven bits as they are (R4). -/
def setRewritten (flags : Byte) : Byte := flags ||| 0x01#8

/-! ### Command records (section 1.3, R8) -/

inductive Verb where
  | set
  | stroke
  | stop
deriving DecidableEq, Repr

def Verb.code : Verb → Byte
  | .set => 1
  | .stroke => 2
  | .stop => 3

def Verb.ofCode? (n : Nat) : Option Verb :=
  match n with
  | 1 => some .set
  | 2 => some .stroke
  | 3 => some .stop
  | _ => none

/-- A command record. -/
structure Command where
  number : Nat
  verb : Verb
  value : Int
deriving DecidableEq, Repr

/-- The command of a well-formed COMMAND frame: KIND COMMAND, LEN 5 and verb 1, 2 or 3 (R8). -/
def Frame.command? (f : Frame) : Option Command :=
  if f.kind = kindCommand ∧ f.payload.length = 5 then
    (Verb.ofCode? (byteAt f.payload 2)).map fun v => ⟨u16At f.payload 0, v, s16At f.payload 3⟩
  else none

/-- The bytes of a command record. -/
def Command.bytes (c : Command) : List Byte := be16 c.number ++ [c.verb.code] ++ sbe16 c.value

/-- The frame with another command value; CHECK follows (R4, R36). -/
def Frame.withValue (f : Frame) (v : Int) : Frame := { f with payload := f.payload.take 3 ++ sbe16 v }

/-- A transit frame rewritten to a value: REWRITTEN set (R4). -/
def Frame.rewrittenTo (f : Frame) (v : Int) : Frame :=
  { f.withValue v with flags := setRewritten f.flags }

/-! ### Reading records (section 1.3, R7) -/

/-- A reading record, its quality byte read as R7 and R48 give. -/
structure Reading where
  point : Nat
  value : Int
  quality : Quality
deriving DecidableEq, Repr

def Quality.ofByte (n : Nat) : Quality :=
  match n with
  | 0 => .good
  | 2 => .calibrating
  | _ => .bad

/-- The reading record at a position of a payload. -/
def readingAt (bs : List Byte) (i : Nat) : Reading := ⟨u16At bs i, s16At bs (i + 2), Quality.ofByte (byteAt bs (i + 4))⟩

/-- Whether a SAMPLE payload is well formed: LEN 5, 10, and so on up to 55 (R7). -/
def sampleWellFormed (bs : List Byte) : Bool := bs.length != 0 && bs.length % 5 == 0

/-- The readings of a well-formed SAMPLE payload, in payload order. -/
def readings (bs : List Byte) : List Reading := (List.range (bs.length / 5)).map fun i => readingAt bs (5 * i)

/-! ### Codes of coded fields (sections 1.4 to 1.6) -/

def lineCode : Option Line → Nat
  | none => 0
  | some .one => 1
  | some .two => 2

/-- A line field of a record: 0, 1 or 2; `none` where the code is above 2. -/
def lineField? (n : Nat) : Option (Option Line) :=
  match n with
  | 0 => some none
  | 1 => some (some .one)
  | 2 => some (some .two)
  | _ => none

/-- A line argument: 1 or 2. -/
def lineArg? (n : Nat) : Option Line :=
  match n with
  | 1 => some .one
  | 2 => some .two
  | _ => none

/-- A one-byte index field, `none` being written 0xFF. -/
def indexCode : Option Nat → Byte
  | none => 0xFF#8
  | some i => u8 i

def ChannelClass.code : ChannelClass → Nat
  | .temperature => 1
  | .oxygen => 2
  | .pollutant => 3
  | .steamFlow => 4
  | .drumLevel => 5
  | .position => 6
  | .status => 7
  | .generic => 8

def ChannelClass.ofCode? (n : Nat) : Option ChannelClass :=
  match n with
  | 1 => some .temperature
  | 2 => some .oxygen
  | 3 => some .pollutant
  | 4 => some .steamFlow
  | 5 => some .drumLevel
  | 6 => some .position
  | 7 => some .status
  | 8 => some .generic
  | _ => none

/-- Channel state codes; UNSET, code 0, is a channel that holds no point. -/
def ChannelState.code : ChannelState → Nat
  | .warming => 1
  | .live => 2
  | .stale => 3
  | .failedOver => 4
  | .calibrating => 5
  | .outOfService => 6

def Quality.code : Quality → Nat
  | .good => 0
  | .bad => 1
  | .calibrating => 2

def Role.code : Role → Nat
  | .feedGroup => 1
  | .feedRam => 2
  | .grateZone => 3
  | .air => 4
  | .lime => 5
  | .carbon => 6
  | .reagent => 7
  | .turbineLoad => 8
  | .bypass => 9
  | .auxBurner => 10
  | .generic => 11

def Role.ofCode? (n : Nat) : Option Role :=
  match n with
  | 1 => some .feedGroup
  | 2 => some .feedRam
  | 3 => some .grateZone
  | 4 => some .air
  | 5 => some .lime
  | 6 => some .carbon
  | 7 => some .reagent
  | 8 => some .turbineLoad
  | 9 => some .bypass
  | 10 => some .auxBurner
  | 11 => some .generic
  | _ => none

/-- The reagent a role doses, for LIME, CARBON and REAGENT. -/
def Role.reagent? : Role → Option Reagent
  | .lime => some .lime
  | .carbon => some .carbon
  | .reagent => some .reagent
  | _ => none

def RamState.code : RamState → Nat
  | .inService => 0
  | .faulted => 1
  | .outOfService => 2

def RamState.ofCode? (n : Nat) : Option RamState :=
  match n with
  | 0 => some .inService
  | 1 => some .faulted
  | 2 => some .outOfService
  | _ => none

def LogKind.code : LogKind → Nat
  | .halfHour => 1
  | .daily => 2

def LogStatus.code : LogStatus → Nat
  | .open => 0
  | .closed => 1
  | .closedByReset => 2

def Mode.code : Mode → Nat
  | .commission => 0
  | .operate => 1

def Sink.code : Sink → Nat
  | .none => 0
  | .limited => 1
  | .full => 2

def Envelope.code : Envelope → Nat
  | .idle => 0
  | .active => 1
  | .releasing => 2

def CaptureSource.code : CaptureSource → Nat
  | .slot n => n.val
  | .clamp => 24
  | .withheld => 25
  | .tripFrame => 26
  | .confirmFail => 27

def Disposition.code : Disposition → Nat
  | .forwarded => 1
  | .rewritten => 2
  | .absorbed => 3
  | .withheld => 4
  | .dropped => 5

def Priority.code : Priority → Nat
  | .urgent => 1
  | .routine => 2

/-- Hold cause codes (section 1.5). -/
def HoldCause.ofCode? (n : Nat) : Option HoldCause :=
  match n with
  | 1 => some .manual
  | 2 => some .tripped
  | 3 => some .furnaceCold
  | 4 => some .noSink
  | 5 => some .emission
  | 6 => some .noRam
  | _ => none

/-- Attention cause codes (section 1.4). -/
def Cause.code : Cause → Nat
  | .tripOne => 1
  | .tripTwo => 2
  | .limitFault => 3
  | .feedHoldEmissionOne => 4
  | .feedHoldEmissionTwo => 5
  | .originLoss => 6
  | .channelLost => 7
  | .strokeTimeout => 8
  | .strokeRefused => 9
  | .episodeOpened => 10
  | .dailyExceeded => 11
  | .captureTaken => 12
  | .captureMissed => 13
  | .portError => 14
  | .orderRefused => 15

/-- The causes in increasing code. -/
def Cause.all : List Cause :=
  [.tripOne, .tripTwo, .limitFault, .feedHoldEmissionOne, .feedHoldEmissionTwo, .originLoss, .channelLost,
   .strokeTimeout, .strokeRefused, .episodeOpened, .dailyExceeded, .captureTaken, .captureMissed, .portError,
   .orderRefused]

/-- Causes 1–6 are URGENT, causes 7–15 ROUTINE (section 10.2). -/
def Cause.priority (c : Cause) : Priority := if c.code ≤ 6 then .urgent else .routine

/-- TRIP_n of a line. -/
def Cause.trip : Line → Cause
  | .one => .tripOne
  | .two => .tripTwo

/-- FEED_HOLD_EMISSION_n of a line. -/
def Cause.feedHoldEmission : Line → Cause
  | .one => .feedHoldEmissionOne
  | .two => .feedHoldEmissionTwo

/-- The notice record of a cause and its held event (section 1.4). -/
def noticeRecord (c : Cause) (h : HeldEvent) : List Byte :=
  [u8 c.code, u8 c.priority.code] ++ be32 h.time ++ [u8 (lineCode h.line)] ++ be16 h.detail

/-- Reply statuses (section 1.5). -/
inductive Status where
  | done
  | partly
  | ignored
  | refusedMode
  | refusedRange
  | refusedBusy
  | refusedInUse
  | refusedLoosen
  | badRequest
  | badConfirm
  | unknown
deriving DecidableEq, Repr

def Status.code : Status → Nat
  | .done => 0
  | .partly => 1
  | .ignored => 2
  | .refusedMode => 3
  | .refusedRange => 4
  | .refusedBusy => 5
  | .refusedInUse => 6
  | .refusedLoosen => 7
  | .badRequest => 8
  | .badConfirm => 9
  | .unknown => 10

/-- Order acknowledgement statuses (section 1.3). -/
inductive AckStatus where
  | accepted
  | replaced
  | cancelled
  | cleared
  | refusedFull
  | refusedRange
  | unknown
deriving DecidableEq, Repr

def AckStatus.code : AckStatus → Nat
  | .accepted => 1
  | .replaced => 2
  | .cancelled => 3
  | .cleared => 4
  | .refusedFull => 5
  | .refusedRange => 6
  | .unknown => 7

/-! ### The confirm block (R12) -/

/-- The identity as four bytes, three times over. -/
def identityTriple (id : BitVec 32) : List Byte :=
  be32 id.toNat ++ be32 id.toNat ++ be32 id.toNat

/-- The search of R12, with its count of consecutive 0xA5 bytes. -/
def findConfirm (triple : List Byte) : List Byte → Nat → Bool
  | [], _ => false
  | b :: rest, n =>
    if b = 0xA5#8 then findConfirm triple rest (n + 1)
    else if n < 4 then findConfirm triple rest 0
    else if (b :: rest).take 12 = triple then true
    else findConfirm triple rest 0

end Sys2Proof.Machine
end

