-- ==== Sys2Proof/Machine/Flags.lean ====
section
/-! DEFINITION. The part's flag sets (hold sets, EMISSION reasons, trip cause sets, attention cause sets) and their bytes
(sections 1.4 and 1.5 of 01_segment_frames.md), and the bounds the limit table puts on its values. -/

namespace Sys2Proof.Machine

/-- A flag at a bit. -/
def flag (b : Bool) (i : Nat) : Nat := if b then 2 ^ i else 0

/-! ### Hold sets: the cause of code c at bit c − 1 -/

def HoldSet.get (h : HoldSet) : HoldCause → Bool
  | .manual => h.manual
  | .tripped => h.tripped
  | .furnaceCold => h.furnaceCold
  | .noSink => h.noSink
  | .emission => h.emission
  | .noRam => h.noRam

def HoldSet.set (h : HoldSet) (c : HoldCause) (b : Bool) : HoldSet :=
  match c with
  | .manual => { h with manual := b }
  | .tripped => { h with tripped := b }
  | .furnaceCold => { h with furnaceCold := b }
  | .noSink => { h with noSink := b }
  | .emission => { h with emission := b }
  | .noRam => { h with noRam := b }

/-- Whether the hold set names no cause. -/
def HoldSet.isEmpty (h : HoldSet) : Bool :=
  !(h.manual || h.tripped || h.furnaceCold || h.noSink || h.emission || h.noRam)

def HoldSet.byte (h : HoldSet) : Nat :=
  flag h.manual 0 + flag h.tripped 1 + flag h.furnaceCold 2 + flag h.noSink 3 + flag h.emission 4 + flag h.noRam 5

/-! ### EMISSION reasons -/

def ReasonSet.empty : ReasonSet := ⟨false, false, false⟩

def ReasonSet.isEmpty (r : ReasonSet) : Bool := !(r.episodeCap || r.budget || r.saturation)

def ReasonSet.add (r : ReasonSet) : EmissionReason → ReasonSet
  | .episodeCap => { r with episodeCap := true }
  | .budget => { r with budget := true }
  | .saturation => { r with saturation := true }

def ReasonSet.byte (r : ReasonSet) : Nat := flag r.episodeCap 0 + flag r.budget 1 + flag r.saturation 2

/-! ### Trip cause sets -/

def TripSet.get (t : TripSet) : TripCause → Bool
  | .restart => t.restart
  | .integrity => t.integrity
  | .drumLowLow => t.drumLowLow
  | .manual => t.manual

def TripSet.set (t : TripSet) (c : TripCause) (b : Bool) : TripSet :=
  match c with
  | .restart => { t with restart := b }
  | .integrity => { t with integrity := b }
  | .drumLowLow => { t with drumLowLow := b }
  | .manual => { t with manual := b }

def TripSet.isEmpty (t : TripSet) : Bool := !(t.restart || t.integrity || t.drumLowLow || t.manual)

def TripSet.byte (t : TripSet) : Nat :=
  flag t.restart 0 + flag t.integrity 1 + flag t.drumLowLow 2 + flag t.manual 3

/-! ### Attention cause sets: the cause of code c at bit c − 1, bit 15 zero -/

/-- The flags of the causes whose status is set (R179). -/
def Attention.statusSet (a : Attention) : Nat :=
  (a.causes.zipIdx.map fun (c, i) => flag c.status i).sum

/-- The flags of the causes that are enabled (R183). -/
def Attention.enableSet (a : Attention) : Nat :=
  (a.causes.zipIdx.map fun (c, i) => flag c.enable i).sum

/-- Whether a cause set names a cause. -/
def causeNamed (set : Nat) (c : Cause) : Bool := set.testBit (c.code - 1)

/-! ### Limit entries (section 4.1) -/

/-- The 24 entries of a line, in index order. -/
inductive LineLimit where
  | furnaceMin
  | furnaceHyst
  | o2Ref
  | bedCeiling
  | strokeCharge
  | burnRate
  | strokeTol
  | episodeCap
  | budget
  | drumLow
  | drumLowLow
  | drumGrace
  | hhLimit (p : Pollutant)
  | dayLimit (p : Pollutant)
deriving DecidableEq, Repr

/-- The four entries of the plant. -/
inductive PlantLimit where
  | maxLoad
  | steamFactor
  | blockMinSamples
  | dayMinValid
deriving DecidableEq, Repr

/-- An entry of the limit table. -/
inductive LimitId where
  | line (l : Line) (k : LineLimit)
  | plant (k : PlantLimit)
deriving DecidableEq, Repr

/-- The line-1 index of a line's entry. -/
def LineLimit.offset : LineLimit → Nat
  | .furnaceMin => 0
  | .furnaceHyst => 1
  | .o2Ref => 2
  | .bedCeiling => 3
  | .strokeCharge => 4
  | .burnRate => 5
  | .strokeTol => 6
  | .episodeCap => 7
  | .budget => 8
  | .drumLow => 9
  | .drumLowLow => 10
  | .drumGrace => 11
  | .hhLimit p => 11 + p.code
  | .dayLimit p => 17 + p.code

/-- The limit index: line 2's index is line 1's plus 24. -/
def LimitId.index : LimitId → Nat
  | .line .one k => k.offset
  | .line .two k => 24 + k.offset
  | .plant .maxLoad => 48
  | .plant .steamFactor => 49
  | .plant .blockMinSamples => 50
  | .plant .dayMinValid => 51

/-- The line entry at a line-1 index 0–23. -/
def LineLimit.ofOffset (n : Nat) : LineLimit :=
  match n with
  | 0 => .furnaceMin
  | 1 => .furnaceHyst
  | 2 => .o2Ref
  | 3 => .bedCeiling
  | 4 => .strokeCharge
  | 5 => .burnRate
  | 6 => .strokeTol
  | 7 => .episodeCap
  | 8 => .budget
  | 9 => .drumLow
  | 10 => .drumLowLow
  | 11 => .drumGrace
  | n => if n < 18 then .hhLimit (Pollutant.ofPosition (n - 12)) else .dayLimit (Pollutant.ofPosition (n - 18))

/-- The entry at a limit index, for 0–51. -/
def LimitId.ofIndex? (n : Nat) : Option LimitId :=
  if n < 24 then some (.line .one (LineLimit.ofOffset n))
  else if n < 48 then some (.line .two (LineLimit.ofOffset (n - 24)))
  else match n with
    | 48 => some (.plant .maxLoad)
    | 49 => some (.plant .steamFactor)
    | 50 => some (.plant .blockMinSamples)
    | 51 => some (.plant .dayMinValid)
    | _ => none

/-- The range of an entry, its least and its greatest value. -/
def LimitId.range : LimitId → Int × Int
  | .line _ .furnaceMin => (600, 1200)
  | .line _ .furnaceHyst => (0, 50)
  | .line _ .o2Ref => (300, 1500)
  | .line _ .bedCeiling => (0, 32767)
  | .line _ .strokeCharge => (1, 10000)
  | .line _ .burnRate => (1, 1000)
  | .line _ .strokeTol => (0, 100)
  | .line _ .episodeCap => (1, 16)
  | .line _ .budget => (0, 6000)
  | .line _ .drumLow => (-500, 500)
  | .line _ .drumLowLow => (-500, 500)
  | .line _ .drumGrace => (1, 40)
  | .line _ (.hhLimit _) => (0, 32767)
  | .line _ (.dayLimit _) => (0, 32767)
  | .plant .maxLoad => (0, 600)
  | .plant .steamFactor => (1, 5000)
  | .plant .blockMinSamples => (1, 600)
  | .plant .dayMinValid => (1, 48)

/-- Whether a higher value is the stricter one. -/
def LimitId.tightensUp : LimitId → Bool
  | .line _ .furnaceMin => true
  | .line _ .drumLow => true
  | .line _ .drumLowLow => true
  | _ => false

/-- Whether the entry accepts an override. -/
def LimitId.acceptsOverride : LimitId → Bool
  | .line _ .furnaceMin => true
  | .line _ .bedCeiling => true
  | .line _ .episodeCap => true
  | .line _ .budget => true
  | .line _ .drumLow => true
  | .line _ .drumLowLow => true
  | .line _ (.hhLimit _) => true
  | .line _ (.dayLimit _) => true
  | .plant .maxLoad => true
  | _ => false

/-- Whether a value lies within an entry's range. -/
def LimitId.inRange (i : LimitId) (v : Int) : Bool := i.range.1 ≤ v && v ≤ i.range.2

/-- Whether an override is looser than the commissioned value (R63). -/
def LimitId.looser (i : LimitId) (override commissioned : Int) : Bool :=
  if i.tightensUp then override < commissioned else commissioned < override

/-- The effective value of an entry (R63). -/
def LimitEntry.effective (e : LimitEntry) : Int := e.override.getD e.commissioned

/-- The bytes the check code covers: the commissioned values in index order (R72). -/
def LimitTable.codeBytes (t : LimitTable) : List Byte := t.entries.flatMap fun e => sbe16 e.commissioned

end Sys2Proof.Machine
end

