-- ==== Sys2Proof/Machine/Ops.lean ====
section
/-! DEFINITION. The named operations over the state that every block uses: reading and updating each block's record,
effective limits and effective channel values, and the choice among orders that the spec leaves open. -/

namespace Sys2Proof.Machine

/-! ### Counts -/

/-- A count that adds 1 and saturates (00_scope.md, Numbers). -/
def satSucc (top n : Nat) : Nat := if n < top then n + 1 else n

/-! ### Each block's record -/

def State.port (s : State) (p : PortId) : Port := s.ports.get p

def State.modPort (s : State) (p : PortId) (f : Port → Port) : State :=
  { s with ports := s.ports.set p (f (s.ports.get p)) }

def State.feedOf (s : State) (l : Line) : Feed := s.feed.get l

def State.modFeed (s : State) (l : Line) (f : Feed → Feed) : State :=
  { s with feed := s.feed.set l (f (s.feed.get l)) }

def State.averagerOf (s : State) (l : Line) : Averager := s.averager.get l

def State.modAverager (s : State) (l : Line) (f : Averager → Averager) : State :=
  { s with averager := s.averager.set l (f (s.averager.get l)) }

def State.pollutantOf (s : State) (l : Line) (p : Pollutant) : PollutantState := (s.averager.get l).pollutants.get p

def State.modPollutant (s : State) (l : Line) (p : Pollutant) (f : PollutantState → PollutantState) : State :=
  s.modAverager l fun a => { a with pollutants := a.pollutants.set p (f (a.pollutants.get p)) }

def State.tripOf (s : State) (l : Line) : TripUnit := s.trip.get l

def State.modTrip (s : State) (l : Line) (f : TripUnit → TripUnit) : State :=
  { s with trip := s.trip.set l (f (s.trip.get l)) }

def State.binding (s : State) (l : Line) : LineBinding := s.lineBinding.get l

def State.modDispatch (s : State) (f : DispatchUnit → DispatchUnit) : State := { s with dispatch := f s.dispatch }

def State.modRunback (s : State) (f : Runback → Runback) : State := { s with runback := f s.runback }

def State.modLimits (s : State) (f : LimitTable → LimitTable) : State := { s with limits := f s.limits }

def State.modCapture (s : State) (f : CaptureStore → CaptureStore) : State := { s with capture := f s.capture }

/-- The channel record of an index: `none` for UNSET, and for an index beyond the table. -/
def State.channel (s : State) (i : Nat) : Option Channel := s.channels.getD i none

def State.setChannel (s : State) (i : Nat) (c : Option Channel) : State :=
  { s with channels := s.channels.set i c }

/-- The actuator record of an entry index: `none` for an empty entry, and for an index beyond the table. -/
def State.actuator (s : State) (i : Nat) : Option Actuator := s.actuators.getD i none

def State.setActuator (s : State) (i : Nat) (a : Option Actuator) : State :=
  { s with actuators := s.actuators.set i a }

/-- What the attention unit holds for a cause. -/
def State.cause (s : State) (c : Cause) : CauseRecord := s.attention.causes.getD (c.code - 1) CauseRecord.clear

def State.modCause (s : State) (c : Cause) (f : CauseRecord → CauseRecord) : State :=
  { s with attention :=
    { s.attention with causes := s.attention.causes.set (c.code - 1) (f (s.cause c)) } }

/-! ### Pins (log 29) -/

/-- Trip output of a line: asserted while the line's set is non-empty, and throughout RESET_N (R167, R172). -/
def State.tripOutput (s : State) (l : Line) : Bool := s.resetAsserted || !(s.tripOf l).causes.isEmpty

/-- ATTN: asserted while one of causes 1–6 is set and enabled, and released throughout RESET_N (R181). -/
def State.attn (s : State) : Bool :=
  !s.resetAsserted && (s.attention.causes.take 6).any fun c => c.status && c.enable

/-! ### Effective values -/

/-- A limit entry by index; entries beyond the table, which no `LimitId` names, read as unwritten. -/
def State.limitEntry (s : State) (i : LimitId) : LimitEntry := s.limits.entries.getD i.index ⟨0, none⟩

/-- The effective value of a limit entry, derived afresh at every read (R63, R70). -/
def State.limit (s : State) (i : LimitId) : Int := (s.limitEntry i).effective

/-- A line's effective limit. -/
def State.lineLimit (s : State) (l : Line) (k : LineLimit) : Int := s.limit (.line l k)

/-- The effective MAX_LOAD, in load units. -/
def State.maxLoad (s : State) : Nat := (s.limit (.plant .maxLoad)).toNat

def State.isLive (s : State) (i : Nat) : Bool :=
  match s.channel i with
  | some c => c.state == .live
  | none => false

/-- The channel whose own value is the effective value of a channel: itself, or its fallback, when LIVE (R55). -/
def State.supplier (s : State) (i : Nat) : Option Nat :=
  if s.isLive i then some i
  else match (s.channel i).bind (·.fallback) with
    | some f => if s.isLive f then some f else none
    | none => none

/-- The effective value of a channel; `none` is UNAVAILABLE (R55). -/
def State.effective (s : State) (i : Nat) : Option Int :=
  (s.supplier i).bind fun j => (s.channel j).bind (·.own)

/-- The effective value of a channel role; an unbound role reads UNAVAILABLE (section 3.6). -/
def State.roleValue (s : State) (role : Option Nat) : Option Int := role.bind s.effective

/-! ### Orders the spec leaves open (log 5) -/

/-- A choice among `n` things: none to make for fewer than two; else the next scripted choice, or a free one. -/
def State.choose (s : State) (n : Nat) : Nat × State :=
  if n < 2 then (0, s)
  else match s.script with
    | k :: rest => (k % n, { s with script := rest })
    | [] => (Config.freeChoice s.freeCount % n, { s with freeCount := s.freeCount + 1 })

/-- Queues of actions, one for each agent that has to act: the actions of one agent are taken in order, and whose next
action is taken next is a free choice. `fuel` bounds the number of actions. -/
def interleave : Nat → List (List (State → State)) → State → State
  | 0, _, s => s
  | fuel + 1, agents, s =>
    let waiting := agents.filter fun q => !q.isEmpty
    let (k, s) := s.choose waiting.length
    match waiting[k]? with
    | some (act :: rest) => interleave fuel (waiting.set k rest) (act s)
    | _ => s

/-- Actions of different agents, each taken whole, in an order that is a free choice. -/
def inAnyOrder (acts : List (State → State)) (s : State) : State :=
  interleave acts.length (acts.map fun a => [a]) s

/-- The queues of several agents, interleaved in an order left open. -/
def deliver (queues : List (List (State → State))) (s : State) : State :=
  interleave (queues.map List.length).sum queues s

/-! ### Folds -/

/-- Actions taken one after the other, in the order of a list. -/
def inTurn {α : Type} (xs : List α) (act : α → State → State) (s : State) : State :=
  xs.foldl (fun s x => act x s) s

end Sys2Proof.Machine
end

