-- ==== Sys2Proof/Machine/FramePath.lean ====
section
/-! DEFINITION. The transmit side of the frame path (02_frame_path.md, sections 2.3 to 2.6), the attention unit's setting
events and NOTICE frames, which it originates there (10_evidence_capture_and_attention.md, section 10.2), the port error
record (section 1.2) and the capture store's offers (section 10.1). -/

namespace Sys2Proof.Machine

/-! ### Origin queues (R28, R31, R32) -/

def Port.origin (q : Port) : Priority → List Waiting
  | .urgent => q.urgent
  | .routine => q.routine

def Port.setOrigin (q : Port) (pr : Priority) (ws : List Waiting) : Port :=
  match pr with
  | .urgent => { q with urgent := ws }
  | .routine => { q with routine := ws }

/-- How many frames an origin queue can hold; the reservation counts as an occupied slot (R32). -/
def State.originCapacity (s : State) (p : PortId) (pr : Priority) : Nat :=
  match p, pr with
  | _, .urgent => 8
  | .field, .routine => 16
  | .supervisor, .routine => if s.reservation then 15 else 16

/-- An originated frame that takes its SEQ from the port's counter (R28). -/
def State.originFrame (s : State) (p : PortId) (dest kind : Byte) (payload : List Byte) : Frame :=
  ⟨dest, s.ownStation, kind, u8 (s.port p).seq, 0x02#8, payload⟩

/-- A frame with the counter's SEQ enters an origin queue at the tail, and the counter advances; `none` when the queue
is full and the frame is lost (R28, R31). -/
def State.enterOrigin (s : State) (p : PortId) (pr : Priority) (dest kind : Byte) (payload : List Byte) :
    Option State :=
  if ((s.port p).origin pr).length < s.originCapacity p pr then
    some { s.modPort p fun q =>
        { q.setOrigin pr (q.origin pr ++ [⟨s.nextMark, s.originFrame p dest kind payload⟩]) with
          seq := (q.seq + 1) % 256 } with
      nextMark := s.nextMark + 1 }
  else none

/-! ### Attention causes and notices (R10, R179, R180) -/

/-- A setting event: the status is set and the held event replaced (R179). Where the status was clear, this is a notice
occasion, which is acted on when the event that the setting is part of ends (`noticesSince`). -/
def setCause (c : Cause) (line : Option Line) (detail : Nat) (s : State) : State :=
  s.modCause c fun r => { r with status := true, held := some ⟨line, s.plantTime, detail⟩ }

/-- A frame is lost to a full origin queue of a port: ORIGIN_LOSS is set with the port's code (R31). -/
def originLoss (p : PortId) (s : State) : State := setCause .originLoss none p.code s

/-- Whether an occasion builds a NOTICE: status set, enable on, mark clear, a station written (R180). -/
def State.noticeDue (s : State) (c : Cause) : Bool :=
  (s.cause c).status && (s.cause c).enable && !(s.cause c).noticed && s.attention.station != 0

/-- The NOTICE built for a cause at an occasion, if one is due, and whether it was lost (R180, R31). -/
def State.offerNotice (s : State) (c : Cause) : State × Bool :=
  if s.noticeDue c then
    let marked := s.modCause c fun r => { r with noticed := true }
    match (s.cause c).held with
    | some h =>
      match marked.enterOrigin .supervisor c.priority (u8 s.attention.station) kindNotice (noticeRecord c h) with
      | some s' => (s', false)
      | none => (marked, true)
    | none => (marked, false)
  else (s, false)

/-- A NOTICE was lost: ORIGIN_LOSS is set with the SUPERVISOR port's code. Where that is an occasion, its own NOTICE is
built at once; if that is lost too, ORIGIN_LOSS is set again, and nothing more follows (R31). -/
def noticeLoss (s : State) : State :=
  let fresh := !(s.cause .originLoss).status
  let s := originLoss .supervisor s
  if fresh then
    let (s, lost) := s.offerNotice .originLoss
    if lost then originLoss .supervisor s else s
  else s

/-- A notice occasion for a cause (R180). -/
def noticeOccasion (c : Cause) (s : State) : State :=
  let (s, lost) := s.offerNotice c
  if lost then noticeLoss s else s

/-- The end of an event: the causes that it set from clear have their occasions, in increasing code (R180). -/
def noticesSince (before s : State) : State :=
  inTurn (Cause.all.filter fun c => !(before.cause c).status && (s.cause c).status) noticeOccasion s

/-- An action taken as one event, with the NOTICEs of the causes it sets at its end (R180, log 18). -/
def asEvent (act : State → State) (s : State) : State := noticesSince s (act s)

/-! ### Port errors (R5) -/

inductive PortErrorKind where
  | length
  | check
  | overrun
  | stray
deriving DecidableEq, Repr

def PortErrors.add (e : PortErrors) : PortErrorKind → PortErrors
  | .length => { e with length := satSucc 65535 e.length }
  | .check => { e with check := satSucc 65535 e.check }
  | .overrun => { e with overruns := satSucc 65535 e.overruns }
  | .stray => { e with strays := satSucc 65535 e.strays }

/-- A port error event: the named count adds 1, saturating, and PORT_ERROR is set with the port's code (R5). -/
def portError (k : PortErrorKind) (p : PortId) (s : State) : State :=
  setCause .portError none p.code (s.modPort p fun q => { q with errors := q.errors.add k })

/-! ### The capture store's offers (R174) -/

def State.armed (s : State) (src : CaptureSource) : Bool := s.capture.armed.getD src.code false

/-- The lowest-numbered free capture slot. -/
def State.freeSlot (s : State) : Option Nat := s.capture.slots.findIdx? (·.isNone)

/-- An offer reaches the capture store (R174). -/
def captureOffer (o : CaptureRecord) (s : State) : State :=
  if s.armed o.source then
    match s.freeSlot with
    | some i =>
      setCause .captureTaken none i (s.modCapture fun c =>
        { c with slots := c.slots.set i (some o), armed := c.armed.set o.source.code false })
    | none =>
      setCause .captureMissed none o.source.code (s.modCapture fun c => { c with missed := satSucc 65535 c.missed })
  else s

/-! ### The last forwarded value (R89) -/

/-- The entry that holds an actuator number. -/
def State.entryOf (s : State) (number : Nat) : Option Nat :=
  s.actuators.findIdx? fun e =>
    match e with
    | some a => a.number == number
    | none => false

/-- A SET for an actuator number entered a queue, as the waiting frame of a mark: the last forwarded value is set (R89). -/
def State.setLast (s : State) (number : Nat) (v : Int) (mark : Nat) : State :=
  match s.entryOf number with
  | some i =>
    match s.actuator i with
    | some a => s.setActuator i (some { a with last := some v, setter := some mark })
    | none => s
  | none => s

/-! ### Transit queues (R26) -/

/-- The port a transit frame leaves through. -/
def PortId.opposite : PortId → PortId
  | .field => .supervisor
  | .supervisor => .field

/-- A frame from a port enters the transit queue of its direction at the tail, or is lost to a full queue; whether it
entered. A well-formed SET that enters the downward queue sets the last forwarded value (R26, R89). The overrun that a
lost frame counts as is taken when the arrival ends (`finishArrival`). -/
def State.enterTransit (s : State) (arrived : PortId) (f : Frame) : State × Bool :=
  let out := PortId.opposite arrived
  if (s.port out).transit.length < 32 then
    let s' := { s.modPort out fun q => { q with transit := q.transit ++ [⟨s.nextMark, f⟩] } with
      nextMark := s.nextMark + 1 }
    match arrived, f.command? with
    | .supervisor, some ⟨number, .set, v⟩ => (s'.setLast number v s.nextMark, true)
    | _, _ => (s', true)
  else (s, false)

/-! ### Originated commands (R28 to R31, R89, R90) -/

/-- Whether a waiting frame is a COMMAND for an actuator number. -/
def Waiting.commands (w : Waiting) (number : Nat) : Bool :=
  match w.frame.command? with
  | some c => c.number == number
  | none => false

/-- The waiting command into which a new one coalesces takes its verb and value (R29). -/
def coalesceInto (c : Command) (ws : List Waiting) : List Waiting :=
  match ws with
  | [] => []
  | w :: rest =>
    if w.commands c.number then { w with frame := { w.frame with payload := c.bytes } } :: rest
    else w :: coalesceInto c rest

/-- After an URGENT command has entered, older ROUTINE ones for its actuator are removed (R30). The transit credit stays
as it stands, a credit of 8 too, of which R33 does not speak (DESIGN CHOICE, unsafe, log 35). -/
def State.supersede (s : State) (number : Nat) : State :=
  s.modPort .field fun q => { q with routine := q.routine.filter fun w => !w.commands number }

/-- What follows the entry of an originated command as the waiting frame of a mark: the last forwarded value (R89) and
the removal of R30. -/
def State.commandEntered (s : State) (pr : Priority) (c : Command) (mark : Nat) : State :=
  let s := match c.verb with
    | .set => s.setLast c.number c.value mark
    | _ => s
  match pr with
  | .urgent => s.supersede c.number
  | .routine => s

/-- A COMMAND is originated into a FIELD origin queue: it coalesces (R29), or takes a slot (R28), or is lost (R31). -/
def originateCommand (pr : Priority) (c : Command) (s : State) : State :=
  match ((s.port .field).origin pr).find? (·.commands c.number) with
  | some w =>
    (s.modPort .field fun q => q.setOrigin pr (coalesceInto c (q.origin pr))).commandEntered pr c w.mark
  | none =>
    match s.enterOrigin .field pr 255 kindCommand c.bytes with
    | some s' => s'.commandEntered pr c s.nextMark
    | none => originLoss .field s

/-! ### In-place rewrite of waiting frames (R36) -/

/-- A bound of any value, upper or lower. -/
inductive Bound where
  | upper (v : Int)
  | lower (v : Int)
deriving DecidableEq, Repr

def Bound.value : Bound → Int
  | .upper v => v
  | .lower v => v

/-- Whether a value lies beyond the bound. -/
def Bound.beyond : Bound → Int → Bool
  | .upper b, v => b < v
  | .lower b, v => v < b

/-- Whether a waiting frame is a well-formed SET for the actuator number with a value beyond the bound (R36). -/
def Waiting.qualifies (w : Waiting) (number : Nat) (b : Bound) : Bool :=
  match w.frame.command? with
  | some ⟨n, .set, v⟩ => n == number && b.beyond v
  | _ => false

def rewriteTransit (number : Nat) (b : Bound) (w : Waiting) : Waiting :=
  if w.qualifies number b then { w with frame := w.frame.rewrittenTo b.value } else w

def rewriteOrigin (number : Nat) (b : Bound) (w : Waiting) : Waiting :=
  if w.qualifies number b then { w with frame := w.frame.withValue b.value } else w

/-- The marks of the frames that a rewrite request reaches: the downward transit queue and both FIELD origin queues. -/
def State.qualifying (s : State) (number : Nat) (b : Bound) : List Nat :=
  (((s.port .field).transit ++ (s.port .field).urgent ++ (s.port .field).routine).filter
    (·.qualifies number b)).map (·.mark)

/-- If the frame that set the actuator's last forwarded value was rewritten, that value becomes the bound (R89). -/
def State.reportRewrites (s : State) (number : Nat) (b : Bound) (marks : List Nat) : State :=
  match s.entryOf number with
  | some i =>
    match s.actuator i with
    | some a =>
      match a.setter with
      | some m => if m ∈ marks then s.setActuator i (some { a with last := some b.value }) else s
      | none => s
    | none => s
  | none => s

/-- A rewrite request for an actuator number and a bound (R36); and whether it moved a waiting frame. -/
def State.rewrite (s : State) (number : Nat) (b : Bound) : State × Bool :=
  let marks := s.qualifying number b
  let s' := s.modPort .field fun q =>
    { q with
      transit := q.transit.map (rewriteTransit number b)
      urgent := q.urgent.map (rewriteOrigin number b)
      routine := q.routine.map (rewriteOrigin number b) }
  (s'.reportRewrites number b marks, !marks.isEmpty)

/-! ### Transmit arbiters and links (R33 to R35) -/

/-- The arbiter's choice among a port's three queues: the frame sent, and the port after its removal (R33, R34). -/
def Port.choice (q : Port) : Option (Frame × Port) :=
  match q.urgent with
  | w :: rest => some (w.frame, { q with urgent := rest })
  | [] =>
    match q.routine, decide (q.credit = 8) with
    | w :: rest, true => some (w.frame, { q with routine := rest, credit := 0 })
    | _, _ =>
      match q.transit with
      | w :: rest =>
        some (w.frame, { q with transit := rest, credit := if q.routine.isEmpty then q.credit else q.credit + 1 })
      | [] =>
        match q.routine with
        | w :: rest => some (w.frame, { q with routine := rest, credit := 0 })
        | [] => none

/-- The start of a transmission where one can be: transmitter free, link UP, a frame waiting (R33). -/
def Port.start (q : Port) : Port :=
  if q.linkUp && q.transmitting.isNone then
    match q.choice with
    | some (f, q') => { q' with transmitting := some f }
    | none => q
  else q

/-- A command that takes place only while RESET_N is not held asserted (log 11). -/
def unlessHeld (act : State → State) (s : State) : State := if s.resetAsserted then s else act s

/-- TRANSMISSION_START (R33). -/
def transmissionStart (p : PortId) : State → State := unlessHeld fun s => s.modPort p Port.start

/-- TRANSMISSION_COMPLETION: the transmitter becomes free and the arbiter chooses again (R34). -/
def transmissionCompletion (p : PortId) : State → State := unlessHeld fun s =>
  if (s.port p).transmitting.isSome then s.modPort p fun q => Port.start { q with transmitting := none } else s

/-- LINK_DOWN: a frame in transmission is abandoned (R35). -/
def linkDown (p : PortId) : State → State := unlessHeld fun s =>
  s.modPort p fun q => { q with linkUp := false, transmitting := none }

/-- LINK_UP: the arbiter chooses at once (R35). -/
def linkUp (p : PortId) : State → State := unlessHeld fun s =>
  if (s.port p).linkUp then s else s.modPort p fun q => Port.start { q with linkUp := true }

end Sys2Proof.Machine
end

