-- ==== Sys2Proof/Machine/Guard.lean ====
section
/-! DEFINITION. The command guard's bounds, its part in originated commands, and what it does when a bound tightens
(05_command_guard_and_actuator_table.md). The treatment of an arriving frame stands in Arrival.lean. -/

namespace Sys2Proof.Machine

/-- A line's band for a reagent: the highest of the bands of the pollutants that drive it (R132). -/
def State.reagentBand (s : State) (l : Line) : Reagent → Fin 3
  | .lime => max (s.pollutantOf l .hcl).band (s.pollutantOf l .so2).band
  | .reagent => (s.pollutantOf l .nox).band
  | .carbon => (s.pollutantOf l .toc).band

/-- The floor of a dosing band (R86). -/
def Actuator.floorAt (a : Actuator) (b : Fin 3) : Int :=
  match b with
  | 0 => a.floor0
  | 1 => a.floor1
  | 2 => a.floor2

/-- The current floor of a reagent entry: by the band of its reagent on its line, floor0 on line 0 (R86). -/
def State.currentFloor (s : State) (a : Actuator) : Int :=
  match a.line, a.role.reagent? with
  | some l, some r => a.floorAt (s.reagentBand l r)
  | _, _ => a.floor0

/-- A value brought between a lower and an upper bound. -/
def clamp (lo hi v : Int) : Int := if v < lo then lo else if hi < v then hi else v

/-- The bound clamp of R86 and R87: for a reagent [current floor, max], for the turbine [0, allowed load]; `none` for a
role that has no such bound. -/
def State.boundClamp (s : State) (a : Actuator) (v : Int) : Option Int :=
  if a.role.reagent?.isSome then some (clamp (s.currentFloor a) a.max v)
  else if a.role = .turbineLoad then some (clamp 0 s.dispatch.allowed v)
  else none

/-- The clamp to [min, max] and the step limit of R84. -/
def Actuator.rangeAndStep (a : Actuator) (v : Int) : Int :=
  let v := clamp a.min a.max v
  match a.last with
  | some w =>
    if a.maxStep ≠ 0 ∧ a.min ≤ w ∧ w ≤ a.max then clamp (w - a.maxStep) (w + a.maxStep) v else v
  | none => v

/-- A command originated through the guard to an entry; nothing for an empty entry; STOP carries 0 (R90). -/
def originate (entry : Nat) (verb : Verb) (value : Int) (pr : Priority) (s : State) : State :=
  match s.actuator entry with
  | some a => originateCommand pr ⟨a.number, verb, if verb = .stop then 0 else value⟩ s
  | none => s

/-- The last forwarded value of an entry. -/
def State.lastForwarded (s : State) (entry : Nat) : Option Int := (s.actuator entry).bind (·.last)

/-- A reagent entry's current floor has risen: waiting frames are rewritten to it, then a SET at the floor is originated
where the last forwarded value was below it (R91). -/
def floorRise (entry : Nat) (floor : Int) (s : State) : State :=
  match s.actuator entry with
  | some a =>
    let (s, _) := s.rewrite a.number (.lower floor)
    match a.last with
    | some w => if w < floor then originate entry .set floor .routine s else s
    | none => s
  | none => s

/-- A reagent band has changed from `old` to `new` on a line: each entry of the role and line whose current floor is
thereby higher is treated in turn, in increasing index; a fall does nothing here (R91, R132). -/
def reagentBandChange (l : Line) (r : Reagent) (old new : Fin 3) (s : State) : State :=
  inTurn (List.range 48) (fun i s =>
    match s.actuator i with
    | some a =>
      if a.role.reagent? = some r ∧ a.line = some l ∧ a.floorAt old < a.floorAt new
      then floorRise i (a.floorAt new) s else s
    | none => s) s

/-- The entry that holds role TURBINE_LOAD (R78). -/
def State.turbineEntry (s : State) : Option Nat :=
  s.actuators.findIdx? fun e =>
    match e with
    | some a => a.role == .turbineLoad
    | none => false

/-- The dispatch unit posts a fall of the allowed load: waiting turbine SETs are rewritten, then a SET at the new load is
originated to the bound entry where its last setpoint or a waiting frame lay above it (R92). -/
def turbineEnforce (allowed : Nat) (pr : Priority) (s : State) : State :=
  match s.turbineEntry.bind s.actuator with
  | some a =>
    let (s', moved) := s.rewrite a.number (.upper allowed)
    match s.plantBinding.turbineLoad with
    | some e =>
      let above : Bool := match s.lastForwarded e with
        | some w => decide ((allowed : Int) < w)
        | none => false
      if above || moved then originate e .set allowed pr s' else s'
    | none => s'
  | none => s

/-- Dispatch follow: where the last forwarded value of the bound turbine entry is absent or differs from the allowed
load, a routine SET is originated (R153). -/
def followAllowed (s : State) : State :=
  match s.plantBinding.turbineLoad with
  | some e => if s.lastForwarded e = some (s.dispatch.allowed : Int) then s
              else originate e .set s.dispatch.allowed .routine s
  | none => s

/-- The bounds that an accepted write of an entry tightened (R93), from the entry as it stood before. `oldFloor` is its
current floor before the write, where it held a reagent role with the same number. -/
def actuatorWriteBounds (entry : Nat) (before : Option Actuator) (s : State) : State :=
  match s.actuator entry with
  | some a =>
    if a.role.reagent?.isSome then
      let (s1, _) := s.rewrite a.number (.upper a.max)
      let risen : Bool := match before with
        | some b => if b.role.reagent?.isSome ∧ b.number = a.number
                    then decide (s.currentFloor b < s.currentFloor a) else true
        | none => true
      if risen then floorRise entry (s1.currentFloor a) s1 else s1
    else if a.role = .turbineLoad then
      let held : Bool := match before with
        | some b => decide (b.role = .turbineLoad ∧ b.number = a.number)
        | none => false
      if held then s else (s.rewrite a.number (.upper s.dispatch.allowed)).1
    else s
  | none => s

end Sys2Proof.Machine
end

