-- ==== Sys2Proof/Machine/Feed.lean ====
section
/-! DEFINITION. The feed admission units (06_grate_feed_admission.md): stroke queue, bed charge, release, stroke engine,
hold set. -/

namespace Sys2Proof.Machine

/-! ### Charge and ceiling -/

/-- The charge of a stroke: length × STROKE_CHARGE / 100 rounded down, or 1 where that gives 0 (R98). -/
def State.strokeCharge (s : State) (l : Line) (length : Nat) : Nat :=
  Nat.max 1 (length * (s.lineLimit l .strokeCharge).toNat / 100)

/-- A line's effective ceiling, from the sink state and BED_CEILING as they stand (R99). -/
def State.ceiling (s : State) (l : Line) : Nat :=
  match s.dispatch.sink with
  | .full => (s.lineLimit l .bedCeiling).toNat
  | .limited => (s.lineLimit l .bedCeiling).toNat / 2
  | .none => 0

/-! ### Rams -/

/-- The entries named in the first ram-count positions of a line's ram list. -/
def State.rams (s : State) (l : Line) : List Nat := (s.binding l).ramList.take (s.binding l).ramCount

/-- Whether a ram's state is IN_SERVICE. -/
def State.inService (s : State) (entry : Nat) : Bool :=
  match s.actuator entry with
  | some a => a.ram == .inService
  | none => false

/-- Whether some ram of the line's list is IN_SERVICE. -/
def State.someRam (s : State) (l : Line) : Bool := (s.rams l).any s.inService

/-- The list position of the first ram IN_SERVICE, seeking from a position and wrapping (R101). -/
def State.seekRam (s : State) (l : Line) (start : Nat) : Option Nat :=
  let n := (s.rams l).length
  ((List.range n).map fun k => (start + k) % n).find? fun k =>
    match (s.rams l)[k]? with
    | some e => s.inService e
    | none => false

/-! ### Release (R100, R101) -/

/-- Whether the head of the stroke queue may be released now (R100). -/
def State.mayRelease (s : State) (l : Line) : Bool :=
  match (s.feedOf l).engine, (s.feedOf l).queue with
  | .ready, head :: _ =>
    (s.feedOf l).holds.isEmpty && (s.feedOf l).bed + s.strokeCharge l head.length ≤ s.ceiling l && s.someRam l
  | _, _ => false

/-- The release of the head entry (R101). -/
def release (l : Line) (s : State) : State :=
  match (s.feedOf l).queue, s.seekRam l (s.feedOf l).rotation with
  | head :: rest, some k =>
    let entry := (s.rams l).getD k 0
    let charge := s.strokeCharge l head.length
    let s := s.modFeed l fun f =>
      { f with rotation := (k + 1) % (s.rams l).length, queue := rest, bed := f.bed + charge }
    let s := originate entry .stroke head.length .routine s
    s.modFeed l fun f => { f with engine := .inStroke entry (head.length * 10), timeoutCount := f.timeout }
  | _, _ => s

/-- A release check (R100). -/
def releaseCheck (l : Line) (s : State) : State := if s.mayRelease l then release l s else s

/-! ### The stroke engine (R103 to R106) -/

/-- The engine goes to SETTLING with the settle count set to the settle interval; the in-flight record is removed. -/
def Feed.toSettling (f : Feed) : Feed := { f with engine := .settling, settleCount := f.settle }

/-- A stroke in flight, where there is one, is aborted with an URGENT STOP to its ram (R106). -/
def abortStroke (l : Line) (s : State) : State :=
  match (s.feedOf l).engine with
  | .inStroke ram _ => (originate ram .stop 0 .urgent s).modFeed l Feed.toSettling
  | _ => s

/-! ### The hold set (R108) -/

/-- A cause is added where absent; an addition while IN_STROKE aborts the stroke (R108). -/
def addHold (l : Line) (c : HoldCause) (s : State) : State :=
  if (s.feedOf l).holds.get c then s
  else abortStroke l (s.modFeed l fun f => { f with holds := f.holds.set c true })

/-- A cause is removed where present, and a release check follows (R108). -/
def removeHold (l : Line) (c : HoldCause) (s : State) : State :=
  if (s.feedOf l).holds.get c then
    releaseCheck l (s.modFeed l fun f => { f with holds := f.holds.set c false })
  else s

/-- FURNACE_COLD re-evaluated; its gain over a charged bed starts the auxiliary burner (R111). -/
def evalFurnace (l : Line) (s : State) : State :=
  let cold (s : State) : State :=
    if (s.feedOf l).holds.furnaceCold then s
    else
      let s := addHold l .furnaceCold s
      match (s.binding l).auxBurner with
      | some e => if 0 < (s.feedOf l).bed then originate e .set 1 .routine s else s
      | none => s
  match s.roleValue (s.binding l).furnaceTemp with
  | none => cold s
  | some t =>
    if t < s.lineLimit l .furnaceMin then cold s
    else if s.lineLimit l .furnaceMin + s.lineLimit l .furnaceHyst ≤ t then removeHold l .furnaceCold s
    else s

/-- NO_RAM re-evaluated (R115). -/
def evalNoRam (l : Line) (s : State) : State :=
  if s.someRam l then removeHold l .noRam s else addHold l .noRam s

/-- A ram's state or position channel has changed, or the line's ram fields: NO_RAM, then a release check (R59, R82). -/
def ramChange (l : Line) (s : State) : State := releaseCheck l (evalNoRam l s)

/-- The sink state has changed: NO_SINK and the new ceiling are taken at the one post (R99, R112). -/
def sinkChange (l : Line) (s : State) : State :=
  if s.dispatch.sink = .none then addHold l .noSink s else releaseCheck l (removeHold l .noSink s)

/-- An EMISSION reason is posted (R113). -/
def postReason (l : Line) (r : EmissionReason) (s : State) : State :=
  let first := (s.feedOf l).reasons.isEmpty
  let s := s.modFeed l fun f => { f with reasons := f.reasons.add r }
  if first then
    let s := addHold l .emission s
    setCause (Cause.feedHoldEmission l) (some l) (s.feedOf l).reasons.byte s
  else s

/-- BUDGET is posted where the minutes used stand at or above the effective BUDGET (R113, R118, R119). -/
def postBudget (l : Line) (s : State) : State :=
  if s.lineLimit l .budget ≤ ((s.averagerOf l).minutes : Int) then postReason l .budget s else s

/-! ### Strokes from the guard (R95, R97) -/

/-- A stroke entry reaches the unit (R95). -/
def strokeArrives (l : Line) (length : Nat) (source seq : Byte) (s : State) : State :=
  if (s.feedOf l).queue.length < 8 then
    let deadline := Nat.min 4294967295 (s.plantTime + (s.feedOf l).ttl)
    releaseCheck l (s.modFeed l fun f => { f with queue := f.queue ++ [⟨length, source, seq, deadline⟩] })
  else setCause .strokeRefused (some l) seq.toNat s

/-- A STOP to the feed group (R97). -/
def feedStop (l : Line) (s : State) : State := abortStroke l (s.modFeed l fun f => { f with queue := [] })

/-! ### The second tick (R96, R98, R102, R104, R105) -/

/-- The bed charge burns down by the effective BURN_RATE, stopping at 0 (R98). -/
def bedDecay (l : Line) (s : State) : State :=
  s.modFeed l fun f => { f with bed := f.bed - (s.lineLimit l .burnRate).toNat }

/-- Entries whose deadline is below plant time are removed, wherever they stand (R96). -/
def expireStrokes (l : Line) (s : State) : State :=
  s.modFeed l fun f => { f with queue := f.queue.filter fun e => s.plantTime ≤ e.deadline }

/-- A stroke in flight times out (R104). -/
def strokeTimesOut (l : Line) (ram : Nat) (s : State) : State :=
  let s := s.modFeed l Feed.toSettling
  match s.actuator ram with
  | some a =>
    if a.position.isSome then
      let s := ramChange l (s.setActuator ram (some { a with ram := .faulted }))
      let s := originate ram .stop 0 .urgent s
      setCause .strokeTimeout (some l) a.number s
    else s
  | none => s

/-- The engine's count of a tick (R102). -/
def engineCount (l : Line) (s : State) : State :=
  match (s.feedOf l).engine with
  | .ready => s
  | .inStroke ram _ =>
    let s := s.modFeed l fun f => { f with timeoutCount := f.timeoutCount - 1 }
    if (s.feedOf l).timeoutCount = 0 then strokeTimesOut l ram s else s
  | .settling =>
    s.modFeed l fun f =>
      { f with settleCount := f.settleCount - 1, engine := if f.settleCount - 1 = 0 then .ready else .settling }

/-- A second tick at a line's feed admission unit, its parts in the order of R102. -/
def feedTick (l : Line) (s : State) : State :=
  releaseCheck l (engineCount l (expireStrokes l (bedDecay l s)))

/-! ### Position updates (R103) -/

/-- An update of the position channel of a ram's entry: a fresh value at or above target less tolerance completes the
stroke in flight of that ram (R103). -/
def positionUpdate (l : Line) (entry : Nat) (value : Option Int) (fresh : Bool) (s : State) : State :=
  match (s.feedOf l).engine, value with
  | .inStroke ram target, some v =>
    if fresh ∧ ram = entry ∧ (target : Int) - s.lineLimit l .strokeTol ≤ v then s.modFeed l Feed.toSettling else s
  | _, _ => s

end Sys2Proof.Machine
end

