-- ==== Sys2Proof/Machine/SteamDispatch.lean ====
section
/-! DEFINITION. The dispatch unit (08_steam_header_and_turbine_dispatch.md): sink state, steam load, order queue, ramped
setpoint, allowed load. -/

namespace Sys2Proof.Machine

/-! ### Sink state (R141) -/

/-- Whether the effective turbine status is 1, ONLINE. -/
def State.turbineOnline (s : State) : Bool := s.roleValue s.plantBinding.turbineStatus = some 1

/-- The sink state that the two status channels give (R141). -/
def State.sinkFromStatus (s : State) : Sink :=
  if s.turbineOnline then .full
  else if s.roleValue s.plantBinding.bypassStatus = some 1 then .limited
  else .none

/-- The sink state is derived again; a change is posted to both feed admission units (R141). -/
def deriveSink (s : State) : State :=
  let sink := s.sinkFromStatus
  if sink = s.dispatch.sink then s
  else inAnyOrder [sinkChange .one, sinkChange .two] (s.modDispatch fun d => { d with sink := sink })

/-! ### Steam load (R142) -/

/-- A line's contribution to the steam load (R142). -/
def State.contribution (s : State) (l : Line) : Nat :=
  match s.roleValue (s.binding l).drumLevel, s.roleValue (s.binding l).steamFlow with
  | some drum, some flow =>
    if s.lineLimit l .drumLow ≤ drum then flow.toNat * (s.limit (.plant .steamFactor)).toNat / 1000 else 0
  | _, _ => 0

/-! ### Allowed load (R149 to R153) -/

/-- The least of the four terms, 0 while the turbine is not ONLINE (R149). -/
def State.allowedNow (s : State) : Nat :=
  if s.turbineOnline then
    let load := Nat.min (Nat.min (s.dispatch.ramped / 60) s.dispatch.steamLoad) s.maxLoad
    match s.dispatch.cap with
    | some cap => Nat.min load (cap / 60)
    | none => load
  else 0

/-- The allowed load is computed again and compared with the value held: a fall is posted to the guard with the
priority named (R151), and every change is handed to follow while follow is ON (R150, R153). -/
def recomputeAllowed (pr : Priority) (s : State) : State :=
  let old := s.dispatch.allowed
  let new := s.allowedNow
  if new = old then s
  else
    let s := s.modDispatch fun d => { d with allowed := new }
    let s := if new < old then turbineEnforce new pr s else s
    if s.dispatch.follow then followAllowed s else s

/-! ### The events at the dispatch unit (R150) -/

/-- The steam load is computed again, and the allowed load with it (R142, R150). -/
def dispatchSteam (s : State) : State :=
  recomputeAllowed .routine
    (s.modDispatch fun d => { d with steamLoad := s.contribution .one + s.contribution .two })

/-- A turbine status update: sink state, then the allowed load, URGENT where the turbine leaves ONLINE (R141, R151). -/
def dispatchTurbine (s : State) : State :=
  let was := s.dispatch.online
  let now := s.turbineOnline
  let s := deriveSink (s.modDispatch fun d => { d with online := now })
  recomputeAllowed (if was && !now then .urgent else .routine) s

/-- A bypass status update changes only the sink state (R150). -/
def dispatchBypass (s : State) : State := deriveSink s

/-- A limit change of MAX_LOAD (R150). -/
def dispatchMaxLoad (s : State) : State := recomputeAllowed .routine s

/-- A cap change posted by the runback unit (R150, R151). -/
def capPosted (cap : Option Nat) (s : State) : State :=
  recomputeAllowed .urgent (s.modDispatch fun d => { d with cap := cap })

/-! ### Orders (R144 to R148) -/

/-- Due orders leave the queue from the head, each setting target and ramp rate; a standing rate of 0 is a step (R147). -/
def activate (s : State) : State :=
  let due := s.dispatch.orders.takeWhile fun o => o.effective ≤ s.plantTime
  match due.getLast? with
  | some o =>
    s.modDispatch fun d =>
      { d with
        orders := d.orders.drop due.length
        target := o.target
        rate := o.rate
        ramped := if o.rate = 0 then o.target * 60 else d.ramped }
  | none => s

/-- The ramped setpoint moves toward the target (R148). -/
def DispatchUnit.moveRamp (d : DispatchUnit) : DispatchUnit :=
  let goal := d.target * 60
  if d.rate = 0 then { d with ramped := goal }
  else if d.ramped < goal then { d with ramped := Nat.min goal (d.ramped + d.rate) }
  else { d with ramped := Nat.max goal (d.ramped - d.rate) }

/-- A second tick at the dispatch unit (R147, R148, R150). -/
def dispatchTick (s : State) : State := recomputeAllowed .routine ((activate s).modDispatch DispatchUnit.moveRamp)

/-- A time-set event at the dispatch unit (R44, R147). -/
def dispatchTimeSet (s : State) : State := recomputeAllowed .routine (activate s)

/-- An order is inserted by its effective time, behind every queued order of an equal time (R144). -/
def insertOrder (o : Order) : List Order → List Order
  | [] => [o]
  | q :: rest => if q.effective ≤ o.effective then q :: insertOrder o rest else o :: q :: rest

/-- A SCHEDULE (R144), up to the activation test. -/
def schedule (o : Order) (s : State) : State × AckStatus :=
  if (s.limit (.plant .maxLoad)) < (o.target : Int) then (s, .refusedRange)
  else if 600 < o.rate then (s, .refusedRange)
  else if s.plantTime + 604800 < o.effective then (s, .refusedRange)
  else if s.dispatch.orders.any (·.number = o.number) then
    (s.modDispatch fun d =>
      { d with orders := insertOrder o (d.orders.filter fun q => q.number ≠ o.number) }, .replaced)
  else if 16 ≤ s.dispatch.orders.length then (s, .refusedFull)
  else (s.modDispatch fun d => { d with orders := insertOrder o d.orders }, .accepted)

/-- The handling of a well-formed ORDER by its verb, with the status it gives (R9, R143 to R145, R147). -/
def orderHandled (payload : List Byte) (s : State) : State × AckStatus :=
  let number := u16At payload 0
  match byteAt payload 2 with
  | 1 =>
    let (s, st) := schedule ⟨number, u32At payload 3, u16At payload 7, u16At payload 9⟩ s
    (recomputeAllowed .routine (activate s), st)
  | 2 =>
    if s.dispatch.orders.any (·.number = number) then
      (s.modDispatch fun d => { d with orders := d.orders.filter fun q => q.number ≠ number }, .cancelled)
    else (s, .unknown)
  | 3 => (s.modDispatch fun d => { d with orders := [] }, .cleared)
  | _ => (s, .refusedRange)

/-- The ORDER_ACK: order number, status, pending count; lost where the queue has no slot (R143, R31). -/
def orderAck (dest : Byte) (number : Nat) (st : AckStatus) (s : State) : State :=
  match s.enterOrigin .supervisor .routine dest kindOrderAck
      (be16 number ++ [u8 st.code, u8 s.dispatch.orders.length]) with
  | some s' => s'
  | none => originLoss .supervisor s

/-- A well-formed ORDER reaching the dispatch unit: handling, ORDER_ACK, and ORDER_REFUSED on a refusal (R143). -/
def handleOrder (f : Frame) (s : State) : State :=
  let (s, st) := orderHandled f.payload s
  let s := orderAck f.src (u16At f.payload 0) st s
  match st with
  | .refusedRange => setCause .orderRefused none (u16At f.payload 0) s
  | .refusedFull => setCause .orderRefused none (u16At f.payload 0) s
  | _ => s

end Sys2Proof.Machine
end

