-- ==== Sys2Proof/Machine/RunbackTrip.lean ====
section
/-! DEFINITION. The runback unit and the trip units (09_runback_and_line_trips.md), and the integrity scrub, which adds a
trip cause (04_limit_table_and_commissioning.md, section 4.5). -/

namespace Sys2Proof.Machine

/-! ### The runback envelope (R160 to R164) -/

/-- The four runback conditions. -/
inductive Condition where
  | lineTrip (l : Line)
  | drum (l : Line)
deriving DecidableEq, Repr

def Runback.holds (r : Runback) : Condition → Bool
  | .lineTrip l => r.lineTrip.get l
  | .drum l => r.drum.get l

def Runback.setCondition (r : Runback) (c : Condition) (b : Bool) : Runback :=
  match c with
  | .lineTrip l => { r with lineTrip := r.lineTrip.set l b }
  | .drum l => { r with drum := r.drum.set l b }

/-- Whether any of the four conditions holds. -/
def Runback.anyHolds (r : Runback) : Bool := r.lineTrip.one || r.lineTrip.two || r.drum.one || r.drum.two

/-- The dispatch unit takes the cap that the runback unit has posted; one equal to the cap it keeps changes no term of the
allowed load (R150, R162). -/
def capTaken (s : State) : State :=
  if s.dispatch.cap = s.runback.cap then s else capPosted s.runback.cap s

/-- A trigger: a new or deepened cap, imposed and posted (R162); the dispatch unit takes the post in an action of its own
(`capTaken`), since another of its events may come between (R150). A cap of the same event that it has not yet taken is
taken first (DESIGN CHOICE, unsafe, log 38). The stopped hold count keeps its value (DESIGN CHOICE, safe, log 37). -/
def trigger (s : State) : State :=
  let s := capTaken s
  let base := match s.runback.envelope, s.runback.cap with
    | .idle, _ => s.dispatch.allowed * 60
    | _, some cap => cap
    | _, none => s.dispatch.allowed * 60
  let cap := Nat.max (s.runback.floor * 60) (base - s.runback.depth * 60)
  s.modRunback fun r => { r with envelope := .active, cap := some cap, holdRunning := false }

/-- The envelope goes to IDLE, the hold count stops with its value standing (DESIGN CHOICE, safe, log 37), and the cap's
absence is posted (R164, R165). -/
def envelopeIdle (s : State) : State :=
  capPosted none (s.modRunback fun r => { r with envelope := .idle, cap := none, holdRunning := false })

/-- A condition as evaluated: where it arises it is a trigger; where the last one ends while ACTIVE, the hold count
starts (R160, R163). -/
def condition (c : Condition) (now : Bool) (s : State) : State :=
  if s.runback.holds c = now then s
  else
    let s := s.modRunback fun r => r.setCondition c now
    if now then trigger s
    else if !s.runback.anyHolds && s.runback.envelope = .active then
      s.modRunback fun r => { r with holdCount := r.hold, holdRunning := true }
    else s

/-- DRUM_n evaluated: available and below the effective DRUM_LOW (R160). -/
def runbackDrum (l : Line) (s : State) : State :=
  condition (.drum l) (match s.roleValue (s.binding l).drumLevel with
    | some v => v < s.lineLimit l .drumLow
    | none => false) s

/-- What a drum update, or a changed DRUM_LOW, has the runback unit do, and the dispatch unit's taking of the cap that this
may post (R150, R160). -/
def runbackDrumActions (l : Line) : List (State → State) := [runbackDrum l, capTaken]

/-- The release time of a release select, in seconds (R161). -/
def releaseTime (select : Nat) : Nat :=
  match select with
  | 0 => 120
  | 1 => 300
  | 2 => 600
  | _ => 1200

/-- A release step: the cap rises, and ends the release at MAX_LOAD × 60 (R164). -/
def releaseStep (s : State) : State :=
  let raised := s.runback.cap.getD 0 + Nat.max 1 (s.maxLoad * 60 / releaseTime s.runback.releaseSelect)
  if s.maxLoad * 60 ≤ raised then envelopeIdle s
  else capPosted (some raised) (s.modRunback fun r => { r with cap := some raised })

/-- A second tick at the runback unit: the hold count, or a release step (R163, R164). -/
def runbackTick (s : State) : State :=
  match s.runback.envelope with
  | .idle => s
  | .active =>
    if s.runback.holdRunning then
      let n := s.runback.holdCount - 1
      s.modRunback fun r =>
        if n = 0 then { r with holdCount := 0, holdRunning := false, envelope := .releasing }
        else { r with holdCount := n }
    else s
  | .releasing => releaseStep s

/-- A limit change event for MAX_LOAD at the runback unit (R164). -/
def runbackMaxLoad (s : State) : State :=
  match s.runback.envelope, s.runback.cap with
  | .releasing, some cap => if s.maxLoad * 60 ≤ cap then envelopeIdle s else s
  | _, _ => s

/-! ### Trip cause sets (R167 to R169) -/

/-- What a change of a line's trip cause set between empty and non-empty is posted to: its feed admission unit and the
runback unit (R110, R160, R167). The dispatch unit takes the cap of this trigger at once (DESIGN CHOICE, unsafe, log 38). -/
def tripPosts (l : Line) (tripped : Bool) : List (State → State) :=
  [if tripped then addHold l .tripped else removeHold l .tripped,
   fun s => capTaken (condition (.lineTrip l) tripped s)]

/-- A cause enters a line's set where absent, and TRIP_n is set with the set as it then stands (R167). -/
def recordTrip (l : Line) (c : TripCause) (s : State) : State :=
  if (s.tripOf l).causes.get c then s
  else
    let s := s.modTrip l fun t => { t with causes := t.causes.set c true }
    setCause (Cause.trip l) (some l) (s.tripOf l).causes.byte s

/-- A cause is added to a line's trip cause set where absent; an addition that makes the set non-empty is posted (R167). -/
def addTripCause (l : Line) (c : TripCause) (s : State) : State :=
  if (s.tripOf l).causes.isEmpty then inAnyOrder (tripPosts l true) (recordTrip l c s) else recordTrip l c s

/-- The drum test at an update or a limit change (R168); `fromReading` where the update was posted at the taking of a
reading, for then an addition owes a TRIP_FRAME offer. -/
def drumTest (l : Line) (fromReading : Bool) (s : State) : State :=
  match s.roleValue (s.binding l).drumLevel with
  | some v =>
    if v < s.lineLimit l .drumLowLow then
      let owed := fromReading && !(s.tripOf l).causes.drumLowLow
      addTripCause l .drumLowLow (if owed then { s with tripOffers := s.tripOffers + 1 } else s)
    else s
  | none => s

/-- A sweep at a line's trip unit: the drum grace count (R169). -/
def tripSweep (l : Line) (s : State) : State :=
  match s.roleValue (s.binding l).drumLevel with
  | some _ => s.modTrip l fun t => { t with grace := 0 }
  | none =>
    let s := s.modTrip l fun t => { t with grace := satSucc 255 t.grace }
    if s.lineLimit l .drumGrace ≤ ((s.tripOf l).grace : Int) then addTripCause l .drumLowLow s else s

/-- A limit change event for DRUM_GRACE (R169). -/
def graceChange (l : Line) (s : State) : State :=
  if 1 ≤ (s.tripOf l).grace ∧ s.lineLimit l .drumGrace ≤ ((s.tripOf l).grace : Int) then
    addTripCause l .drumLowLow s else s

/-- The causes that a TRIP_RESET leaves in a line's set (R171). -/
def State.tripRemaining (s : State) (l : Line) : TripSet :=
  let t := (s.tripOf l).causes
  let drumClear : Bool := match s.roleValue (s.binding l).drumLevel with
    | some v => decide (s.lineLimit l .drumLow ≤ v)
    | none => false
  { restart := t.restart && s.limits.mode != .operate
    integrity := t.integrity
    drumLowLow := t.drumLowLow && !drumClear
    manual := false }

/-- The removals of a TRIP_RESET; where they empty the set, the change is posted (R167, R171). -/
def tripReset (l : Line) (s : State) : State :=
  let left := s.tripRemaining l
  let wasEmpty := (s.tripOf l).causes.isEmpty
  let s := s.modTrip l fun t => { t with causes := left }
  if !wasEmpty && left.isEmpty then inAnyOrder (tripPosts l false) s else s

/-! ### The integrity scrub (R73, R74) -/

/-- The check code of the commissioned values as they are held (R72). -/
def State.computedCode (s : State) : BitVec 16 := crc s.limits.codeBytes

/-- The posts owed by a line whose set an addition is about to make non-empty. -/
def State.postsIfEmpty (s : State) (l : Line) : List (State → State) :=
  if (s.tripOf l).causes.isEmpty then tripPosts l true else []

/-- A scrub: a mismatch adds INTEGRITY to both sets and sets LIMIT_FAULT; the trip units then act on the additions, in an
order left open (R74). -/
def scrub (s : State) : State :=
  if s.computedCode = s.limits.checkCode then s
  else
    inAnyOrder (s.postsIfEmpty .one ++ s.postsIfEmpty .two)
      (setCause .limitFault none 0 (recordTrip .two .integrity (recordTrip .one .integrity s)))

/-- A second tick at the limit table: the scrub count, and a scrub at the tenth (R73). -/
def scrubTick (s : State) : State :=
  match s.limits.mode with
  | .commission => s
  | .operate =>
    if s.limits.scrubCount + 1 < 10 then s.modLimits fun t => { t with scrubCount := t.scrubCount + 1 }
    else scrub (s.modLimits fun t => { t with scrubCount := 0 })

end Sys2Proof.Machine
end

