-- ==== Sys2Proof/Machine/Averaging.lean ====
section
/-! DEFINITION. The emission averagers and the exceedance log (07_emission_averaging_and_reagent_dosing.md). -/

namespace Sys2Proof.Machine

/-! ### Samples and bands (R120 to R122, R132) -/

/-- The value normalised to O2_REF: below 0 taken as 0, capped at 32767 (R121). -/
def normalise (measured o2 o2Ref : Int) : Nat :=
  Nat.min 32767 (measured.toNat * (2100 - o2Ref).toNat / (2100 - o2).toNat)

/-- The band of a mean against a limit, both multiplied through (R122). -/
def bandOf (mean : Nat) (limit : Int) : Fin 3 :=
  if (mean : Int) * 100 < limit * 60 then 0
  else if (mean : Int) * 100 < limit * 80 then 1
  else 2

/-- The reagent a pollutant drives (section 7.4). -/
def drivenReagent : Pollutant → Option Reagent
  | .hcl => some .lime
  | .so2 => some .lime
  | .nox => some .reagent
  | .toc => some .carbon
  | .dust => none
  | .co => none

/-- The pollutants that drive a reagent. -/
def reagentDrivers : Reagent → List Pollutant
  | .lime => [.hcl, .so2]
  | .reagent => [.nox]
  | .carbon => [.toc]

/-- A pollutant's band is set; where the reagent band it drives changes, that is posted to the guard (R132). -/
def setBand (l : Line) (p : Pollutant) (b : Fin 3) (s : State) : State :=
  let s' := s.modPollutant l p fun x => { x with band := b }
  match drivenReagent p with
  | some r =>
    if s'.reagentBand l r = s.reagentBand l r then s'
    else reagentBandChange l r (s.reagentBand l r) (s'.reagentBand l r) s'
  | none => s'

/-- The band re-derived from the running mean against the effective limit (R122, R133). -/
def rederiveBand (l : Line) (p : Pollutant) (s : State) : State :=
  let x := s.pollutantOf l p
  setBand l p (bandOf (x.sum / x.valid) (s.lineLimit l (.hhLimit p))) s

/-- A channel update for a pollutant role at the line's averager: a sample when it is fresh and available, valid when the
O2 effective value is available and below 2000 (R120 to R122). -/
def sample (l : Line) (p : Pollutant) (value : Option Int) (fresh : Bool) (s : State) : State :=
  match value, s.roleValue (s.binding l).o2 with
  | some v, some o2 =>
    if fresh ∧ o2 < 2000 ∧ (s.pollutantOf l p).valid < 65535 then
      rederiveBand l p (s.modPollutant l p fun x =>
        { x with sum := x.sum + normalise v o2 (s.lineLimit l .o2Ref), valid := x.valid + 1 })
    else s
  | _, _ => s

/-! ### The exceedance log (R129, R130) -/

/-- The log with room for one more entry: when it holds 32, the closed entry nearest position 0 is removed (R129). -/
def logRoom (log : List LogEntry) : List LogEntry :=
  if log.length < 32 then log else log.eraseP fun e => e.status != .open

/-- An entry is opened at the tail under the next entry number (R129). -/
def openEntry (e : LogEntry) (s : State) : State :=
  { s with
    log := logRoom s.log ++ [{ e with number := s.nextEntry }]
    nextEntry := (s.nextEntry + 1) % 65536 }

/-- Whether an entry is the OPEN HALF_HOUR entry of a line and pollutant; there is at most one (R130). -/
def LogEntry.isOpenEpisode (e : LogEntry) (l : Line) (p : Pollutant) : Bool :=
  e.status == .open && e.kind == .halfHour && e.line == l && e.pollutant == p

/-- A half-hour value above the limit opens an episode, or extends the OPEN one (R126, R130). -/
def exceedEpisode (l : Line) (p : Pollutant) (b v : Nat) (s : State) : State :=
  match (s.pollutantOf l p).openEpisode with
  | some _ =>
    { s with log := s.log.map fun e =>
        if e.isOpenEpisode l p then
          { e with peak := Nat.max e.peak v, halfHours := satSucc 255 e.halfHours } else e }
  | none =>
    let number := s.nextEntry
    let s := openEntry ⟨0, l, p, .halfHour, .open, b - 1800, none, v, 1⟩ s
    let s := s.modPollutant l p fun x => { x with openEpisode := some number }
    setCause .episodeOpened (some l) number s

/-- A half-hour value within the limit closes an OPEN episode at the boundary (R126, R130). -/
def closeEpisode (l : Line) (p : Pollutant) (b : Nat) (s : State) : State :=
  match (s.pollutantOf l p).openEpisode with
  | some _ =>
    { s.modPollutant l p fun x => { x with openEpisode := none } with
      log := s.log.map fun e => if e.isOpenEpisode l p then { e with status := .closed, finish := some b } else e }
  | none => s

/-! ### Closes (R123 to R128, R134) -/

/-- The block mean of an accumulator, `none` being INVALID (R124). -/
def blockMean (x : PollutantState) (minSamples : Int) : Option Nat :=
  if minSamples ≤ (x.valid : Int) ∧ 1 ≤ x.valid then some (x.sum / x.valid) else none

/-- The position of the block that a boundary ends (R124). -/
def blockPosition (b : Nat) : Nat := (b / 600 - 1) % 3

/-- The slot of the half-hour that a boundary ends (R125). -/
def ringSlotOf (b : Nat) : Nat := (b / 1800 - 1) % 48

/-- The block close of a pollutant at a boundary (R124). -/
def blockClose (l : Line) (b : Nat) (p : Pollutant) (s : State) : State :=
  s.modPollutant l p fun x =>
    { x with
      means := x.means.set (blockPosition b) (blockMean x (s.limit (.plant .blockMinSamples)))
      sum := 0
      valid := 0 }

/-- The block mean that a boundary has just closed. -/
def State.closedMean (s : State) (l : Line) (b : Nat) (p : Pollutant) : Option Nat :=
  (s.pollutantOf l p).means.getD (blockPosition b) none

/-- Whether some entry of the reagent's role and line has a last forwarded value equal to its max (R134). -/
def State.atMax (s : State) (l : Line) (r : Reagent) : Bool :=
  s.actuators.any fun e =>
    match e with
    | some a => a.role.reagent? == some r && a.line == some l && a.last == some a.max
    | none => false

/-- The saturation test of a reagent after the block closes of a boundary (R134). -/
def saturationTest (l : Line) (b : Nat) (r : Reagent) (s : State) : State :=
  let means := (reagentDrivers r).filterMap fun p => (s.closedMean l b p).map fun m => (p, m)
  let high := means.any fun (p, m) => s.lineLimit l (.hhLimit p) * 80 ≤ (m : Int) * 100
  let count := (s.averagerOf l).saturation.get r
  let put (n : Nat) (s : State) := s.modAverager l fun a => { a with saturation := a.saturation.set r n }
  if high && s.atMax l r then
    let s := put (Nat.min 3 (count + 1)) s
    if 2 ≤ count then postReason l .saturation s else s
  else if means.isEmpty then s
  else put 0 s

/-- The half-hour value of three block means: the mean of those that are values, when at least two are (R125). -/
def halfHourValue (means : List (Option Nat)) : Option Nat :=
  let vs := means.filterMap id
  if 2 ≤ vs.length then some (vs.sum / vs.length) else none

/-- The half-hour close of a pollutant: value, ring slot, judgement, and the block means become INVALID (R125, R126). -/
def halfHourClose (l : Line) (b : Nat) (p : Pollutant) (s : State) : State :=
  let v := halfHourValue (s.pollutantOf l p).means
  let s := s.modPollutant l p fun x =>
    { x with
      means := [none, none, none]
      ring := x.ring.set (ringSlotOf b) (match v with
        | some v => .value v
        | none => .invalid) }
  match v with
  | none => s
  | some v =>
    if s.lineLimit l (.hhLimit p) < (v : Int) then
      exceedEpisode l p b v (s.modPollutant l p fun x => { x with exceed := satSucc 255 x.exceed })
    else closeEpisode l p b (s.modPollutant l p fun x => { x with exceed := 0 })

/-- Whether a pollutant's half-hour value at this close exceeds its limit (R126). -/
def State.exceeds (s : State) (l : Line) (p : Pollutant) : Bool :=
  match halfHourValue (s.pollutantOf l p).means with
  | some v => s.lineLimit l (.hhLimit p) < (v : Int)
  | none => false

/-- The half-hour closes of a line, the abnormal minutes, and the EMISSION reasons (R125 to R127). -/
def halfHourCloses (l : Line) (b : Nat) (s : State) : State :=
  let exceeding := Pollutant.all.filter (s.exceeds l)
  let s := inTurn Pollutant.all (halfHourClose l b) s
  if exceeding.isEmpty then s
  else
    let s := s.modAverager l fun a => { a with minutes := Nat.min 65535 (a.minutes + 30) }
    let capped := exceeding.any fun p => s.lineLimit l .episodeCap ≤ ((s.pollutantOf l p).exceed : Int)
    let s := if capped then postReason l .episodeCap s else s
    postBudget l s

/-- The values of a ring. -/
def ringValues (ring : List RingSlot) : List Nat :=
  ring.filterMap fun x =>
    match x with
    | .value v => some v
    | _ => none

/-- The day close of a pollutant (R128). -/
def dayClose (l : Line) (b : Nat) (p : Pollutant) (s : State) : State :=
  let vs := ringValues (s.pollutantOf l p).ring
  let mean := vs.sum / vs.length
  let s :=
    if 1 ≤ vs.length ∧ s.limit (.plant .dayMinValid) ≤ (vs.length : Int) ∧ s.lineLimit l (.dayLimit p) < (mean : Int) then
      let number := s.nextEntry
      let s := openEntry ⟨0, l, p, .daily, .closed, b - 86400, some b, mean, vs.length⟩ s
      setCause .dailyExceeded (some l) number s
    else s
  s.modPollutant l p fun x => { x with ring := List.replicate 48 .empty }

/-- A boundary close at the boundary held, its parts in the order of R123. -/
def boundaryClose (l : Line) (s : State) : State :=
  let b := (s.averagerOf l).nextBoundary
  let s := s.modAverager l fun a => { a with nextBoundary := b + 600 }
  let s := inTurn Pollutant.all (blockClose l b) s
  let s := inTurn Reagent.all (saturationTest l b) s
  let s := if b % 1800 = 0 then halfHourCloses l b s else s
  if b % 86400 = 0 then inTurn Pollutant.all (dayClose l b) s else s

/-- Plant time against the next block boundary, at a second tick or a time-set event; a boundary close is one event
(R123). -/
def averagerTick (l : Line) (s : State) : State :=
  if (s.averagerOf l).nextBoundary ≤ s.plantTime then asEvent (boundaryClose l) s else s

/-! ### Time-set events and limit changes (R133, R135, R136) -/

/-- A time-set event at an averager: in OPERATE compared as at a tick; in COMMISSION the block and half-hour in progress
are discarded and the boundary is the smallest multiple of 600 above the new time (R135, R136). -/
def averagerTimeSet (l : Line) (s : State) : State :=
  match s.limits.mode with
  | .operate => averagerTick l s
  | .commission =>
    inTurn Pollutant.all (fun p s => s.modPollutant l p fun x =>
        { x with sum := 0, valid := 0, means := [none, none, none] })
      (s.modAverager l fun a => { a with nextBoundary := (s.plantTime / 600 + 1) * 600 })

/-- A limit change event for an HH_LIMIT (R133). -/
def hhLimitChange (l : Line) (p : Pollutant) (s : State) : State :=
  if 1 ≤ (s.pollutantOf l p).valid then rederiveBand l p s else s

/-- A limit change event for EPISODE_CAP (R133). -/
def episodeCapChange (l : Line) (s : State) : State :=
  if Pollutant.all.any fun p =>
      1 ≤ (s.pollutantOf l p).exceed && s.lineLimit l .episodeCap ≤ ((s.pollutantOf l p).exceed : Int)
  then postReason l .episodeCap s else s

/-! ### Resets (R139, R140) -/

/-- Every OPEN entry is closed by a reset at a plant time (R139, R140). -/
def closedByReset (time : Nat) (log : List LogEntry) : List LogEntry :=
  log.map fun e => if e.status = .open then { e with status := .closedByReset, finish := some time } else e

/-- A pollutant's state after SOFT: the ring is kept (R140). -/
def PollutantState.soft (x : PollutantState) : PollutantState :=
  { PollutantState.initial with ring := x.ring }

/-- A change of each pollutant's state. -/
def mapPollutants (f : PollutantState → PollutantState) (x : PerPollutant PollutantState) :
    PerPollutant PollutantState :=
  ⟨f x.dust, f x.hcl, f x.so2, f x.nox, f x.co, f x.toc⟩

/-- An averager after SOFT: boundary, rings and minutes kept (R140). -/
def Averager.soft (a : Averager) : Averager :=
  { a with pollutants := mapPollutants PollutantState.soft a.pollutants, saturation := ⟨0, 0, 0⟩ }

/-- An averager's pollutants without open episodes, once a reset has closed the entries. -/
def Averager.noOpenEpisodes (a : Averager) : Averager :=
  { a with pollutants := mapPollutants (fun x => { x with openEpisode := none }) a.pollutants }

end Sys2Proof.Machine
end

