-- ==== Sys2Proof/Machine/Channels.lean ====
section
/-! DEFINITION. The channel supervisor: channel updates and their delivery, reading intake, freshness and failover
(03_plant_clock_and_channels.md, sections 3.2 to 3.5). -/

namespace Sys2Proof.Machine

/-! ### Channel updates and their delivery (R56, R57) -/

/-- A channel update event (R56); `fromReading` where it was posted at the taking of a reading (R168). -/
structure Update where
  channel : Nat
  value : Option Int
  fresh : Bool
  fromReading : Bool
deriving DecidableEq, Repr

/-- The channels that name a channel as their fallback, in increasing index. -/
def State.dependants (s : State) (x : Nat) : List Nat :=
  (List.range s.channels.length).filter fun i =>
    match s.channel i with
    | some c => c.fallback == some x
    | none => false

/-- The update for a channel as things stand; fresh when the event is a GOOD reading at the channel that supplies the
effective value (R56). -/
def State.updateFor (s : State) (goodAt : Option Nat) (fromReading : Bool) (c : Nat) : Update :=
  ⟨c, s.effective c, goodAt.isSome && s.supplier c == goodAt, fromReading⟩

/-- What an update has a line's feed admission unit do: the furnace role, then each ram whose position channel it is, in
the order of the ram list (R57; the order among the roles of one update: DESIGN CHOICE, unsafe, log 36). -/
def State.feedDeliveries (s : State) (l : Line) (u : Update) : List (State → State) :=
  (if (s.binding l).furnaceTemp = some u.channel then [evalFurnace l] else []) ++
  ((s.rams l).filter fun e =>
    match s.actuator e with
    | some a => a.role == .feedRam && a.position == some u.channel
    | none => false).map fun e => positionUpdate l e u.value u.fresh

/-- What an update has a line's averager do: a sample for each pollutant role, in the order DUST to TOC (DESIGN CHOICE,
unsafe, log 36); an O2 update changes nothing (R120). -/
def State.averagerDeliveries (s : State) (l : Line) (u : Update) : List (State → State) :=
  (Pollutant.all.filter fun p => (s.binding l).pollutant.get p == some u.channel).map fun p =>
    sample l p u.value u.fresh

/-- What an update has the dispatch unit do, once for each role in which the channel serves it: the steam flow and drum
roles of line 1, those of line 2, turbine status, bypass status (DESIGN CHOICE, unsafe, log 36). -/
def State.dispatchDeliveries (s : State) (u : Update) : List (State → State) :=
  let steam (l : Line) : List (State → State) :=
    (if (s.binding l).steamFlow = some u.channel then [dispatchSteam] else []) ++
    (if (s.binding l).drumLevel = some u.channel then [dispatchSteam] else [])
  steam .one ++ steam .two ++
  (if s.plantBinding.turbineStatus = some u.channel then [dispatchTurbine] else []) ++
  (if s.plantBinding.bypassStatus = some u.channel then [dispatchBypass] else [])

/-- What an update has the runback unit do, line 1 before line 2 (DESIGN CHOICE, unsafe, log 36). -/
def State.runbackDeliveries (s : State) (u : Update) : List (State → State) :=
  (if (s.binding .one).drumLevel = some u.channel then runbackDrumActions .one else []) ++
  (if (s.binding .two).drumLevel = some u.channel then runbackDrumActions .two else [])

/-- What an update has a line's trip unit do (R168). -/
def State.tripDeliveries (s : State) (l : Line) (u : Update) : List (State → State) :=
  if (s.binding l).drumLevel = some u.channel then [drumTest l u.fromReading] else []

/-- The jobs' queues for the updates of one event: each job handles its updates in the order posted (R57). -/
def State.jobQueues (s : State) (us : List Update) : List (List (State → State)) :=
  [us.flatMap (s.feedDeliveries .one), us.flatMap (s.feedDeliveries .two),
   us.flatMap (s.averagerDeliveries .one), us.flatMap (s.averagerDeliveries .two),
   us.flatMap s.dispatchDeliveries, us.flatMap s.runbackDeliveries,
   us.flatMap (s.tripDeliveries .one), us.flatMap (s.tripDeliveries .two)]

/-- The updates of one event are posted and delivered (R56, R57). -/
def postUpdates (goodAt : Option Nat) (fromReading : Bool) (channels : List Nat) (s : State) : State :=
  deliver (s.jobQueues (channels.map (s.updateFor goodAt fromReading))) s

/-- The updates of an event at a channel: for it, then for each channel whose fallback it is (R56). -/
def postFrom (goodAt : Option Nat) (fromReading : Bool) (x : Nat) (s : State) : State :=
  postUpdates goodAt fromReading (x :: s.dependants x) s

/-! ### Reading intake (R48 to R51) -/

/-- A GOOD reading at a channel (R49). -/
def Channel.goodReading (c : Channel) (v : Int) : Channel :=
  let c := { c with own := some v, seen := true }
  match c.state with
  | .warming =>
    let n := c.good + 1
    { c with good := n, state := if c.warmCount ≤ n then .live else .warming }
  | .stale => { c with good := 1, state := if c.warmCount = 1 then .live else .warming }
  | .calibrating => { c with good := 1, state := if c.warmCount = 1 then .live else .warming }
  | .live => c
  | .failedOver => c
  | .outOfService => c

/-- A BAD reading at a channel (R50). -/
def Channel.badReading (c : Channel) : Channel :=
  match c.state with
  | .warming => { c with good := 0 }
  | _ => c

/-- A CALIBRATING reading at a channel (R51). -/
def Channel.calibratingReading (c : Channel) : Channel :=
  let c := { c with seen := true }
  match c.state with
  | .warming => { c with state := .calibrating, good := 0 }
  | .live => { c with state := .calibrating, good := 0 }
  | .stale => { c with state := .calibrating, good := 0 }
  | .calibrating => c
  | .failedOver => c
  | .outOfService => c

/-- A reading of any quality at a channel, at a plant time (R48). -/
def Channel.take (c : Channel) (r : Reading) (time : Nat) : Channel :=
  let c := { c with quality := r.quality, lastTime := time }
  match r.quality with
  | .good => c.goodReading r.value
  | .bad => c.badReading
  | .calibrating => c.calibratingReading

/-- The channel index of a point in the map. -/
def State.channelOfPoint (s : State) (point : Nat) : Option Nat := (s.points.find? (·.1 = point)).map (·.2)

/-- One reading record: taken whole at its channel, its updates posted, or counted as unmapped (R48, R56). -/
def takeReading (r : Reading) (s : State) : State :=
  match s.channelOfPoint r.point with
  | some x =>
    match s.channel x with
    | some c =>
      postFrom (if r.quality = .good then some x else none) true x (s.setChannel x (some (c.take r s.plantTime)))
    | none => s
  | none => { s with unmapped := satSucc 65535 s.unmapped }

/-- The intake of a SAMPLE payload by a SAMPLES slot, each reading taken whole before the next (R7, R48). -/
def takeSample (payload : List Byte) (s : State) : State :=
  if sampleWellFormed payload then inTurn (readings payload) (fun r => asEvent (takeReading r)) s
  else { s with malformed := satSucc 65535 s.malformed }

/-! ### Freshness and failover (R52) -/

/-- Whether a state is checked at sweeps. -/
def ChannelState.swept : ChannelState → Bool
  | .outOfService => false
  | _ => true

/-- Whether a channel in this state can be lost. -/
def ChannelState.canBeLost : ChannelState → Bool
  | .warming => true
  | .live => true
  | .calibrating => true
  | _ => false

/-- Whether a channel is lost at its check: its mark is clear and its count then reaches the window (R52). -/
def Channel.lostAtSweep (c : Channel) : Bool :=
  c.state.canBeLost && !c.seen && c.window ≤ satSucc 255 c.miss

/-- The check of a channel at a sweep, up to its loss (R52). -/
def Channel.swept (c : Channel) : Channel :=
  if !c.state.swept then c
  else if c.seen then { c with seen := false, miss := 0 }
  else { c with miss := satSucc 255 c.miss }

/-- The check of the channel of an index (R52): where it is lost, CHANNEL_LOST is set and its updates are posted. -/
def checkChannel (i : Nat) (s : State) : State :=
  match s.channel i with
  | none => s
  | some c =>
    if c.lostAtSweep then
      let failsOver : Bool := match c.fallback with
        | some f => s.isLive f
        | none => false
      let c' := { c.swept with state := if failsOver then .failedOver else .stale }
      postFrom none false i (setCause .channelLost c.line i (s.setChannel i (some c')))
    else s.setChannel i (some c.swept)

/-- The checks of the channels from one index up to, not including, another, in increasing index. -/
def checkChannels (first past : Nat) (s : State) : State :=
  inTurn ((List.range (past - first)).map (first + ·)) (fun i => asEvent (checkChannel i)) s

end Sys2Proof.Machine
end

