-- ==== Sys2Proof/Machine/Limits.lean ====
section
/-! DEFINITION. The limit table's writes, overrides and FREEZE, and the delivery of changed effective values
(04_limit_table_and_commissioning.md). -/

namespace Sys2Proof.Machine

/-- A limit change event reaches the blocks that the table of section 4.3 names, in an order left open (R69, R70). -/
def deliverLimit (i : LimitId) (s : State) : State :=
  match i with
  | .line l .furnaceMin => evalFurnace l s
  | .line l .furnaceHyst => evalFurnace l s
  | .line l .bedCeiling => releaseCheck l s
  | .line l .strokeCharge => releaseCheck l s
  | .line _ .burnRate => s
  | .line _ .strokeTol => s
  | .line _ .o2Ref => s
  | .line l .episodeCap => episodeCapChange l s
  | .line l (.hhLimit p) => hhLimitChange l p s
  | .line _ (.dayLimit _) => s
  | .line l .budget => postBudget l s
  | .line l .drumLow => deliver [[dispatchSteam], runbackDrumActions l] s
  | .line l .drumLowLow => drumTest l false s
  | .line l .drumGrace => graceChange l s
  | .plant .maxLoad => inAnyOrder [dispatchMaxLoad, runbackMaxLoad] s
  | .plant .steamFactor => dispatchSteam s
  | .plant .blockMinSamples => s
  | .plant .dayMinValid => s

/-- The table with another entry in place. -/
def State.withEntry (s : State) (i : LimitId) (e : LimitEntry) : State :=
  s.modLimits fun t => { t with entries := t.entries.set i.index e }

/-- An entry takes new contents; a change of its effective value is delivered at once (R69). -/
def writeLimit (i : LimitId) (e : LimitEntry) (s : State) : State :=
  let s' := s.withEntry i e
  if s'.limit i = s.limit i then s' else deliverLimit i s'

/-- SET_LIMIT (R65). -/
def setLimit (index : Nat) (v : Int) (s : State) : Status × State :=
  match LimitId.ofIndex? index with
  | none => (.refusedRange, s)
  | some i =>
    if s.limits.mode = .operate then (.refusedMode, s)
    else if !i.inRange v then (.refusedRange, s)
    else
      let kept := (s.limitEntry i).override.filter fun o => !i.looser o v
      (.done, writeLimit i ⟨v, kept⟩ s)

/-- Whether a line's effective DRUM_LOW_LOW is below its effective DRUM_LOW (R67). -/
def State.drumOrdered (s : State) (l : Line) : Bool := s.lineLimit l .drumLowLow < s.lineLimit l .drumLow

/-- Whether the drum pair an entry belongs to, if any, is ordered (R67). -/
def State.pairOrdered (s : State) (i : LimitId) : Bool :=
  match i with
  | .line l .drumLow => s.drumOrdered l
  | .line l .drumLowLow => s.drumOrdered l
  | _ => true

/-- SET_OVERRIDE, its tests in the order of R66. -/
def setOverride (index : Nat) (v : Int) (s : State) : Status × State :=
  match LimitId.ofIndex? index with
  | none => (.refusedRange, s)
  | some i =>
    let e := s.limitEntry i
    if !i.acceptsOverride then (.badRequest, s)
    else if !i.inRange v then (.refusedRange, s)
    else if i.looser v e.commissioned then (.refusedLoosen, s)
    else if !(s.withEntry i { e with override := some v }).pairOrdered i then (.refusedRange, s)
    else (.done, writeLimit i { e with override := some v } s)

/-- CLEAR_OVERRIDE (R68). -/
def clearOverride (index : Nat) (s : State) : Status × State :=
  match LimitId.ofIndex? index with
  | none => (.refusedRange, s)
  | some i =>
    let e := s.limitEntry i
    if !i.acceptsOverride then (.badRequest, s)
    else if e.override.isNone then (.ignored, s)
    else
      let refused : Bool := match i with
        | .line l .drumLow => !(s.withEntry i { e with override := none }).drumOrdered l
        | _ => false
      if refused then (.refusedRange, s) else (.done, writeLimit i { e with override := none } s)

/-- Whether FREEZE accepts the table: every commissioned value in range, and each line's drum pair ordered both as
commissioned and as effective (R71). -/
def State.freezable (s : State) : Bool :=
  ((List.range 52).all fun n =>
    match LimitId.ofIndex? n with
    | some i => i.inRange (s.limitEntry i).commissioned
    | none => false) &&
  ([Line.one, Line.two].all fun l =>
    (s.limitEntry (.line l .drumLowLow)).commissioned < (s.limitEntry (.line l .drumLow)).commissioned &&
      s.drumOrdered l)

/-- FREEZE, once its confirm block is found (R71). -/
def freeze (s : State) : Status × State :=
  if s.limits.mode = .operate then (.refusedMode, s)
  else if !s.freezable then (.refusedRange, s)
  else (.done, s.modLimits fun t => { t with checkCode := s.computedCode, scrubCount := 0, mode := .operate })

end Sys2Proof.Machine
end

