-- ==== Sys2Proof/Machine/Clock.lean ====
section
/-! DEFINITION. The second tick, the sweep, SET_TIME and the storage fault (03_plant_clock_and_channels.md, section 3.1;
R74). The units that take one tick or one sweep are given no order among themselves (R41, R42, R169): the command names
the units that take it within its step, in the order they take it. A unit not named takes it in a later step: in the
command named after what the tick brings there, or at the latest before the next tick (log 6). -/

namespace Sys2Proof.Machine

/-! ### The second tick (R40, R41) -/

/-- A second tick at a unit: one event there (R41, R102). -/
def takeTick (u : TickUnit) : State → State :=
  asEvent (match u with
    | .feed l => feedTick l
    | .averager l => averagerTick l
    | .dispatch => dispatchTick
    | .runback => runbackTick
    | .limits => scrubTick)

/-- A unit takes the tick it owes, if it owes one. -/
def takeOwedTick (u : TickUnit) (s : State) : State :=
  if u ∈ s.owedTick then takeTick u { s with owedTick := s.owedTick.erase u } else s

/-- Every unit that still owes the present tick takes it. -/
def settleTick (s : State) : State := inTurn TickUnit.all takeOwedTick s

/-- SECOND_TICK: plant time adds 1, stopping at 4294967295 (R40), and the tick is delivered to each unit (R41). -/
def secondTick (order : List TickUnit) : State → State := unlessHeld fun s =>
  let s := settleTick s
  inTurn order takeOwedTick { s with plantTime := satSucc 4294967295 s.plantTime, owedTick := TickUnit.all }

/-- A unit's owed tick, taken where what the command names falls in it. -/
def tickBrings (u : TickUnit) (falls : State → Bool) : State → State := unlessHeld fun s =>
  if u ∈ s.owedTick ∧ falls s then takeOwedTick u s else s

/-- STROKE_EXPIRY: some queued stroke's deadline is below plant time (R96). -/
def strokeExpiry (l : Line) : State → State :=
  tickBrings (.feed l) fun s => (s.feedOf l).queue.any fun e => e.deadline < s.plantTime

/-- STROKE_TIMEOUT: the tick takes the timeout count of the stroke in flight to 0 (R102, R104). -/
def strokeTimeout (l : Line) : State → State :=
  tickBrings (.feed l) fun s =>
    match (s.feedOf l).engine with
    | .inStroke _ _ => (s.feedOf l).timeoutCount ≤ 1
    | _ => false

/-- SETTLE_END: the tick takes the settle count to 0 (R102, R105). -/
def settleEnd (l : Line) : State → State :=
  tickBrings (.feed l) fun s => (s.feedOf l).engine = .settling ∧ (s.feedOf l).settleCount ≤ 1

/-- ORDER_ACTIVATION: the order at the head of the queue is due (R147). -/
def orderActivation : State → State :=
  tickBrings .dispatch fun s =>
    match s.dispatch.orders with
    | o :: _ => o.effective ≤ s.plantTime
    | [] => false

/-- RUNBACK_HOLD_EXPIRY: the tick takes the running hold count to 0 (R163). -/
def runbackHoldExpiry : State → State :=
  tickBrings .runback fun s =>
    s.runback.envelope = .active && s.runback.holdRunning && s.runback.holdCount ≤ 1

/-- INTEGRITY_SCRUB: the tick takes the scrub count to 10 (R73). -/
def integrityScrub : State → State :=
  tickBrings .limits fun s => s.limits.mode = .operate ∧ 10 ≤ s.limits.scrubCount + 1

/-- BOUNDARY_CLOSE: plant time has reached the averager's boundary (R123). -/
def boundaryReached (l : Line) : State → State :=
  tickBrings (.averager l) fun s => (s.averagerOf l).nextBoundary ≤ s.plantTime

/-! ### The sweep (R42, R52, R169) -/

/-- A sweep at a unit. The channel supervisor goes on from the channel at which its owed sweep stands. -/
def takeSweep : SweepUnit → State → State
  | .channels => fun s => checkChannels s.sweepNext s.channels.length { s with sweepNext := 0 }
  | .trip l => asEvent (tripSweep l)

/-- A unit takes the sweep it owes, if it owes one. -/
def takeOwedSweep (u : SweepUnit) (s : State) : State :=
  if u ∈ s.owedSweep then takeSweep u { s with owedSweep := s.owedSweep.erase u } else s

/-- Every unit that still owes the present sweep takes it. -/
def settleSweep (s : State) : State := inTurn SweepUnit.all takeOwedSweep s

/-- SWEEP (R42). -/
def sweep (order : List SweepUnit) : State → State := unlessHeld fun s =>
  let s := settleSweep s
  inTurn order takeOwedSweep { s with owedSweep := SweepUnit.all, sweepNext := 0 }

/-- CHANNEL_LOST: the channel supervisor's owed checks, up to a channel that is lost at its check (R52). -/
def channelLost (c : Nat) : State → State := unlessHeld fun s =>
  let falls : Bool := match s.channel c with
    | some r => r.lostAtSweep
    | none => false
  if .channels ∈ s.owedSweep ∧ s.sweepNext ≤ c ∧ falls then
    checkChannels s.sweepNext (c + 1) { s with sweepNext := c + 1 }
  else s

/-- DRUM_GRACE_EXPIRY: the owed sweep takes a line's grace count to DRUM_GRACE or above, and DRUM_LOW_LOW is absent
(R169). -/
def drumGraceExpiry (l : Line) : State → State := unlessHeld fun s =>
  if .trip l ∈ s.owedSweep ∧ (s.roleValue (s.binding l).drumLevel).isNone ∧
      s.lineLimit l .drumGrace ≤ (satSucc 255 (s.tripOf l).grace : Int) ∧ !(s.tripOf l).causes.drumLowLow then
    takeOwedSweep (.trip l) s
  else s

/-! ### SET_TIME (R43, R44) and the storage fault (R74) -/

/-- Whether SET_TIME is accepted: always in COMMISSION, within 60 s either way in OPERATE (R43). -/
def State.timeAccepted (s : State) (time : Nat) : Bool :=
  match s.limits.mode with
  | .commission => true
  | .operate => time ≤ s.plantTime + 60 && s.plantTime ≤ time + 60

/-- SET_TIME: plant time is replaced and the time-set event delivered to both averagers and the dispatch unit, in an
order left open. A tick still owed by a unit is taken first, at the plant time it produced (R40, R43, R44). -/
def setTime (time : Nat) (s : State) : Status × State :=
  if s.timeAccepted time then
    (.done, inAnyOrder [averagerTimeSet .one, averagerTimeSet .two, dispatchTimeSet]
      { settleTick s with plantTime := time })
  else (.refusedRange, s)

/-- STORAGE_FAULT: the stored check code is altered, in OPERATE (R74). -/
def storageFault (code : BitVec 16) (s : State) : State :=
  match s.limits.mode with
  | .operate => s.modLimits fun t => { t with checkCode := code }
  | .commission => s

end Sys2Proof.Machine
end

