-- ==== Sys2Proof/Machine/Requests.lean ====
section
/-! DEFINITION. The execution of a request: which row of the table the head of the request queue is, the form tests of
R11, the search for a confirm block, and the REPLY (11_management_requests.md, R185 to R188). -/

namespace Sys2Proof.Machine

/-! ### A request's parts (section 1.5) -/

/-- The request code, 0x00 where the frame carries none (R11). -/
def Request.code (r : Request) : Nat := byteAt r.frame.payload 0

/-- The argument area. -/
def Request.args (r : Request) : List Byte := r.frame.payload.drop 1

/-- What a block answers a request with: status, data area, and the state it leaves. -/
structure Answer where
  status : Status
  data : List Byte
  after : State
deriving DecidableEq, Repr

/-- An answer without data. -/
def answer (st : Status) (s : State) : Answer := ⟨st, [], s⟩

/-- The answer of a block that returns a status and a state. -/
def answerPair (x : Status × State) : Answer := ⟨x.1, [], x.2⟩

/-! ### The row of a request (log 8) -/

/-- Whether a point number is in the map. -/
def State.hasPoint (s : State) (point : Nat) : Bool := s.points.any (·.1 == point)

/-- The row of a WRITE_ENTRY by its argument area. A POINTS record of the right length for a point in the map is an
update, every other WRITE_ENTRY on POINTS an insert; a table that is missing or unlisted makes the request one that R11
answers as unknown. -/
def State.rowOfWrite (s : State) (args : List Byte) : Instr :=
  match args with
  | [] => .unknownRequest
  | t :: _ =>
    match t.toNat with
    | 1 => .writeEntryMatch
    | 2 => if args.length = 11 ∧ s.hasPoint (u16At args 3) then .pointUpdate else .pointInsert
    | 3 => .writeEntryActuators
    | 4 => .writeEntryBindings
    | 5 => .writeEntryFeedSettings
    | 6 => .writeEntryRunback
    | 7 => .writeEntryDispatch
    | 8 => .writeEntryNotices
    | 0 => .unknownRequest
    | n => if n ≤ 15 then .writeEntryReadOnly else .unknownRequest

/-- The row of a DELETE_ENTRY by its argument area. -/
def rowOfDelete (args : List Byte) : Instr :=
  match byteAt args 0 with
  | 2 => .deleteEntryPoints
  | 3 => .deleteEntryActuators
  | _ => .deleteEntryRefused

/-- The row of a request. -/
def State.rowOf (s : State) (r : Request) : Instr :=
  match r.code with
  | 0x01 => .readTable
  | 0x02 => s.rowOfWrite r.args
  | 0x03 => rowOfDelete r.args
  | 0x10 => .setLimit
  | 0x11 => .setOverride
  | 0x12 => .clearOverride
  | 0x13 => .freeze
  | 0x20 => .setTime
  | 0x21 => .setChannelService
  | 0x22 => .rearmChannel
  | 0x23 => .enableRam
  | 0x30 => .holdFeed
  | 0x31 => .clearHold
  | 0x32 => .trip
  | 0x33 => .tripReset
  | 0x34 => .stopRunback
  | 0x35 => .newYear
  | 0x40 => .readStatus
  | 0x41 => .readCapture
  | 0x42 => .releaseCapture
  | 0x43 => .clearAttention
  | 0x44 => .clearPortErrors
  | 0x45 => .setNotices
  | 0x50 => .restart
  | _ => .unknownRequest

/-! ### Form tests (R11, R12, R188) -/

/-- A request without confirm: an argument area of another length is answered BAD_REQUEST (R11). -/
def sized (n : Nat) (body : List Byte → State → Answer) (r : Request) (s : State) : Answer :=
  if r.args.length = n then body r.args s else answer .badRequest s

/-- The offer of a request answered BAD_CONFIRM (R174, R188). -/
def Request.confirmOffer (r : Request) : CaptureRecord :=
  ⟨.confirmFail, .supervisor, r.arrived, .absorbed, r.frame.bytes⟩

/-- A request with confirm: its fixed arguments must be present and its block must be found (R11, R12). -/
def confirmed (fixed : Nat) (body : List Byte → State → Answer) (r : Request) (s : State) : Answer :=
  if r.args.length < fixed then answer .badRequest s
  else if findConfirm (identityTriple s.identity) r.args 0 then body r.args s
  else answer .badConfirm (captureOffer r.confirmOffer s)

/-! ### Execution (R186, R187) -/

/-- The REPLY to a request (R187). -/
def State.replyFrame (s : State) (r : Request) (st : Status) (data : List Byte) : Frame :=
  ⟨r.frame.src, s.ownStation, kindReply, r.frame.seq, 0x02#8, u8 r.code :: u8 st.code :: data⟩

/-- The REPLY enters the reserved slot at the tail, the reservation ends, and the sequence counter stays (R32, R187). -/
def placeReply (r : Request) (a : Answer) : State :=
  { a.after.modPort .supervisor fun q =>
      { q with routine := q.routine ++ [⟨a.after.nextMark, a.after.replyFrame r a.status a.data⟩] } with
    reservation := false
    nextMark := a.after.nextMark + 1 }

/-- Whether the engine can take the reservation (R32, R186). -/
def State.replySpace (s : State) : Bool := !s.resetAsserted && decide ((s.port .supervisor).routine.length < 16)

/-- The head of the request queue where it can execute as the row named. -/
def State.executable (s : State) (row : Instr) : Option (Request × List Request) :=
  match s.requests with
  | r :: rest => if s.replySpace && decide (s.rowOf r = row) then some (r, rest) else none
  | [] => none

/-- The engine begins an execution: the request leaves the queue and the reservation is taken (R185, R186). -/
def State.beginExecution (s : State) (rest : List Request) : State := { s with requests := rest, reservation := true }

/-- An answer once the NOTICEs of the causes that the execution set are built, ahead of the REPLY (R180, R187). -/
def Answer.noticed (a : Answer) (before : State) : Answer := { a with after := noticesSince before a.after }

/-- The execution of the request at the head of the queue as the row named: reservation, form, effect, REPLY (R186).
Where no such execution can take place, nothing happens (log 4, log 8). -/
def serve (row : Instr) (body : Request → State → Answer) (s : State) : State :=
  match s.executable row with
  | some (r, rest) => placeReply r ((body r (s.beginExecution rest)).noticed (s.beginExecution rest))
  | none => s

end Sys2Proof.Machine
end

