-- ==== Sys2Proof/Machine/ReadTable.lean ====
section
/-! DEFINITION. READ_TABLE: the records of the 15 tables as bytes (section 1.6 of 01_segment_frames.md) and the run of
records that one reply carries (R189). -/

namespace Sys2Proof.Machine

/-! ### Records -/

def u8Bool (b : Bool) : Byte := if b then 1#8 else 0#8

def Direction.code : Direction → Nat
  | .up => 0
  | .down => 1
  | .either => 2

def Action.code : Action → Nat
  | .forward => 0
  | .drop => 1
  | .samples => 2
  | .guard => 3

/-- MATCH, 50 bytes. -/
def MatchSlot.record (m : MatchSlot) : List Byte :=
  [u8 (flag m.enable 0 + flag m.capture 1 + m.direction.code * 4 + m.action.code * 16), u8 m.minLength] ++
    m.mask ++ m.value

/-- POINTS, 8 bytes. -/
def Channel.pointRecord (c : Channel) (index : Nat) : List Byte :=
  be16 c.point ++
    [u8 index, u8 c.cls.code, u8 (lineCode c.line), u8 c.warmCount, u8 c.window, indexCode c.fallback]

/-- The two value bytes of a field that may be absent: the value, or bytes the spec does not state (log 16). -/
def State.presentOr (s : State) (table index place : Nat) (v : Option Int) : List Byte :=
  match v with
  | some v => sbe16 v
  | none => be16 (Config.absentField s.freeCount table index place).toNat

/-- ACTUATORS, 21 bytes; an empty entry carries the guard's two counts (R88). -/
def State.actuatorRecord (s : State) (i : Nat) : List Byte :=
  match s.actuator i with
  | some a =>
    be16 a.number ++ [u8 a.role.code, u8 (lineCode a.line)] ++ sbe16 a.min ++ sbe16 a.max ++ be16 a.maxStep ++
      [u8Bool a.last.isSome] ++ s.presentOr 3 i 0 a.last ++ [indexCode a.position, u8 a.ram.code] ++
      sbe16 a.floor0 ++ sbe16 a.floor1 ++ sbe16 a.floor2
  | none => be16 s.withheld ++ [0, 0] ++ [0, 0] ++ [0, 0] ++ be16 s.unguarded ++ List.replicate 11 0

/-- BINDINGS, plant, 3 bytes. -/
def PlantBinding.record (b : PlantBinding) : List Byte :=
  [indexCode b.turbineStatus, indexCode b.bypassStatus, indexCode b.turbineLoad]

/-- BINDINGS, line, 22 bytes. -/
def LineBinding.record (b : LineBinding) : List Byte :=
  [indexCode b.furnaceTemp, indexCode b.o2, indexCode b.steamFlow, indexCode b.drumLevel] ++
    Pollutant.all.map (fun p => indexCode (b.pollutant.get p)) ++
    [u8Bool b.feedBound] ++ be16 b.feedGroup ++ [indexCode b.auxBurner, u8 b.ramCount] ++ b.ramList.map u8 ++
    [u8 b.startRam]

/-- FEED_SETTINGS, 4 bytes. -/
def Feed.settingsRecord (f : Feed) : List Byte := be16 f.ttl ++ [u8 f.timeout, u8 f.settle]

/-- RUNBACK, 7 bytes. -/
def Runback.record (r : Runback) : List Byte := be16 r.depth ++ be16 r.floor ++ be16 r.hold ++ [u8 r.releaseSelect]

/-- LIMITS, 5 bytes (R75). -/
def LimitEntry.record (e : LimitEntry) : List Byte :=
  sbe16 e.effective ++ sbe16 e.commissioned ++ [u8Bool e.override.isSome]

/-- LOG, 17 bytes; a position that holds no entry reads all zeros (R16). -/
def State.logRecord (s : State) (i : Nat) : List Byte :=
  match s.log[i]? with
  | some e =>
    be16 e.number ++ [u8 e.line.code, u8 e.pollutant.code, u8 e.kind.code, u8 e.status.code] ++ be32 e.start ++
      be32 (e.finish.getD 0) ++ be16 e.peak ++ [u8 e.halfHours]
  | none => List.replicate 17 0

/-- HALF_HOURS, 3 bytes. -/
def RingSlot.record : RingSlot → List Byte
  | .empty => [0, 0, 0]
  | .invalid => [1, 0, 0]
  | .value v => 2 :: be16 v

/-- The line of a run of per-line indices of a given length. -/
def lineOfIndex (perLine i : Nat) : Line := if i < perLine then .one else .two

/-- The ring slot of a HALF_HOURS index. -/
def State.ringSlotAt (s : State) (i : Nat) : RingSlot :=
  (s.pollutantOf (lineOfIndex 288 i) (Pollutant.ofPosition (i % 288 / 48))).ring.getD (i % 48) .empty

/-- ORDERS, 10 bytes; a position past the queue's tail reads all zeros (R16). -/
def State.orderRecord (s : State) (i : Nat) : List Byte :=
  match s.dispatch.orders[i]? with
  | some o => be16 o.number ++ be32 o.effective ++ be16 o.target ++ be16 o.rate
  | none => List.replicate 10 0

/-- STROKES, 7 bytes; a position past the queue's tail reads all zeros (R16). -/
def State.strokeRecord (s : State) (i : Nat) : List Byte :=
  match (s.feedOf (lineOfIndex 8 i)).queue[i % 8]? with
  | some e => [u8 e.length, e.source, e.seq] ++ be32 e.deadline
  | none => List.replicate 7 0

/-- CHANNEL_STATE, 16 bytes; an UNSET channel carries the two diagnostic counts (R48). -/
def State.channelRecord (s : State) (i : Nat) : List Byte :=
  match s.channel i with
  | some c =>
    be16 c.point ++ [u8 c.state.code, u8Bool c.own.isSome] ++ s.presentOr 14 i 0 c.own ++
      [u8 c.quality.code, u8 c.miss, u8 c.good] ++ be32 c.lastTime ++ [u8Bool (s.effective i).isSome] ++
      s.presentOr 14 i 1 (s.effective i)
  | none => [0, 0, 0, 0] ++ be16 s.unmapped ++ List.replicate 8 0 ++ be16 s.malformed

/-- PORT_ERRORS, 8 bytes. -/
def PortErrors.record (e : PortErrors) : List Byte := be16 e.length ++ be16 e.check ++ be16 e.overruns ++ be16 e.strays

/-- The record at an index of a table. -/
def State.tableRecord (s : State) (table i : Nat) : List Byte :=
  match table with
  | 1 => (s.matchTable.getD i MatchSlot.initial).record
  | 2 =>
    match s.points[i]? with
    | some (_, x) =>
      match s.channel x with
      | some c => c.pointRecord x
      | none => []
    | none => []
  | 3 => s.actuatorRecord i
  | 4 =>
    match i with
    | 0 => s.plantBinding.record
    | 1 => (s.binding .one).record
    | _ => (s.binding .two).record
  | 5 => (s.feedOf (if i = 1 then .one else .two)).settingsRecord
  | 6 => s.runback.record
  | 7 => [u8 s.dispatch.gateway, u8Bool s.dispatch.follow]
  | 8 => u8 s.attention.station :: be16 s.attention.enableSet
  | 9 => (s.limits.entries.getD i ⟨0, none⟩).record
  | 10 => s.logRecord i
  | 11 => (s.ringSlotAt i).record
  | 12 => s.orderRecord i
  | 13 => s.strokeRecord i
  | 14 => s.channelRecord i
  | _ => (s.port (if i = 0 then .field else .supervisor)).errors.record

/-! ### Runs of records (R189) -/

/-- The last index of a table; `none` for a code that names no table. -/
def lastIndex? (table : Nat) : Option Nat :=
  match table with
  | 1 => some 23
  | 2 => some 95
  | 3 => some 47
  | 4 => some 2
  | 5 => some 2
  | 6 => some 0
  | 7 => some 0
  | 8 => some 0
  | 9 => some 51
  | 10 => some 31
  | 11 => some 575
  | 12 => some 15
  | 13 => some 15
  | 14 => some 95
  | 15 => some 1
  | _ => none

/-- How many indices of a table a run can take: all of them, but for POINTS only those of points present. -/
def State.readable (s : State) (table last : Nat) : Nat := if table = 2 then s.points.length else last + 1

/-- The records at consecutive indices, while the count, the table and 50 bytes allow. -/
def collect (record : Nat → List Byte) (past : Nat) : Nat → Nat → Nat → List (List Byte)
  | 0, _, _ => []
  | count + 1, i, used =>
    if past ≤ i then []
    else if 50 < used + (record i).length then []
    else record i :: collect record past count (i + 1) (used + (record i).length)

/-- The next index: 0xFFFF beyond the table's last index, for POINTS where no point stands, for LOG where no entry
stands (R189). -/
def State.nextIndex (s : State) (table last i : Nat) : Nat :=
  if last < i then 0xFFFF
  else if table = 2 ∧ s.points.length ≤ i then 0xFFFF
  else if table = 10 ∧ s.log.length ≤ i then 0xFFFF
  else i

/-- READ_TABLE, once its form is accepted (R189). The free-value counter moves on, so that the unstated bytes of
another read are others (log 16). -/
def readTableBody (args : List Byte) (s : State) : Answer :=
  let table := byteAt args 0
  let first := u16At args 1
  let count := byteAt args 3
  match lastIndex? table with
  | none => answer .badRequest s
  | some last =>
    if count = 0 ∨ last < first ∨ (table = 5 ∧ first = 0) then answer .refusedRange s
    else
      let records := collect (s.tableRecord table) (s.readable table last) count first 0
      ⟨.done, be16 (s.nextIndex table last (first + records.length)) ++ [u8 records.length] ++ records.flatten,
        { s with freeCount := s.freeCount + 1 }⟩

end Sys2Proof.Machine
end

