-- ==== Sys2Proof/Machine/WriteEntry.lean ====
section
/-! DEFINITION. WRITE_ENTRY and DELETE_ENTRY: the tests and the effects of each table's owner (R190). A body takes the
record's argument area, whose length the form test has settled. The index and the read-only test come before the coded
fields (log 32). -/

namespace Sys2Proof.Machine

/-- The index argument of a table request. -/
def indexArg (args : List Byte) : Nat := u16At args 1

/-- The record of a WRITE_ENTRY. -/
def recordArg (args : List Byte) : List Byte := args.drop 3

/-- Whether a one-byte index field is none or below a bound (R14). -/
def indexFieldValid (bound n : Nat) : Bool := n == 255 || n < bound

/-- A one-byte index field, 0xFF being none. -/
def indexField (n : Nat) : Option Nat := if n = 255 then none else some n

/-! ### MATCH (R14, R22) -/

def Direction.ofCode? (n : Nat) : Option Direction :=
  match n with
  | 0 => some .up
  | 1 => some .down
  | 2 => some .either
  | _ => none

def Action.ofCode (n : Nat) : Action :=
  match n with
  | 0 => .forward
  | 1 => .drop
  | 2 => .samples
  | _ => .guard

/-- The slot that a MATCH record writes, where its coded fields and its minimum length are good. -/
def MatchSlot.ofRecord? (rec : List Byte) : Option MatchSlot :=
  let control := byteAt rec 0
  match Direction.ofCode? (control / 4 % 4) with
  | some d =>
    if control < 64 ∧ 8 ≤ byteAt rec 1 ∧ byteAt rec 1 ≤ 63 then
      some
        { enable := control.testBit 0
          direction := d
          minLength := byteAt rec 1
          mask := (rec.drop 2).take 24
          value := (rec.drop 26).take 24
          action := Action.ofCode (control / 16 % 4)
          capture := control.testBit 1 }
    else none
  | none => none

def writeMatchBody (args : List Byte) (s : State) : Answer :=
  if 23 < indexArg args then answer .badRequest s
  else match MatchSlot.ofRecord? (recordArg args) with
    | some m => answer .done { s with matchTable := s.matchTable.set (indexArg args) m }
    | none => answer .refusedRange s

/-! ### POINTS (R45 to R47) -/

/-- What a POINTS record writes. -/
structure PointFields where
  point : Nat
  cls : ChannelClass
  line : Option Line
  warmCount : Nat
  window : Nat
  fallback : Option Nat
deriving DecidableEq, Repr

/-- Whether a fallback is none or names a channel that is not UNSET (R45). -/
def State.fallbackFits (s : State) (fallback : Option Nat) : Bool :=
  match fallback with
  | none => true
  | some f => (s.channel f).isSome

/-- The fields of a POINTS record that passes the checks of R45. -/
def State.pointFields? (s : State) (rec : List Byte) : Option PointFields :=
  match ChannelClass.ofCode? (byteAt rec 3), lineField? (byteAt rec 4) with
  | some c, some l =>
    let fields : PointFields := ⟨u16At rec 0, c, l, byteAt rec 5, byteAt rec 6, indexField (byteAt rec 7)⟩
    if 1 ≤ fields.warmCount ∧ fields.warmCount ≤ 15 ∧ 2 ≤ fields.window ∧ fields.window ≤ 40 ∧
        indexFieldValid 96 (byteAt rec 7) ∧ s.fallbackFits fields.fallback then some fields else none
  | _, _ => none

/-- A pair placed by its point number in the map. -/
def insertPoint (p : Nat × Nat) : List (Nat × Nat) → List (Nat × Nat)
  | [] => [p]
  | q :: rest => if q.1 < p.1 then q :: insertPoint p rest else p :: q :: rest

/-- The channel record of a new point (R45). -/
def PointFields.inserted (f : PointFields) : Channel where
  point := f.point
  cls := f.cls
  line := f.line
  warmCount := f.warmCount
  window := f.window
  fallback := f.fallback
  state := .warming
  own := none
  quality := .bad
  lastTime := 0
  seen := false
  miss := 0
  good := 0

/-- The insert of a point: it takes the lowest-numbered UNSET channel (R45). -/
def pointInsertBody (args : List Byte) (s : State) : Answer :=
  match s.pointFields? (recordArg args) with
  | none => answer .refusedRange s
  | some f =>
    match s.channels.findIdx? (·.isNone) with
    | none => answer .refusedRange s
    | some x =>
      answer .done { s.setChannel x (some f.inserted) with points := insertPoint (f.point, x) s.points }

/-- A channel whose point is written again (R46): a new class or line starts it afresh. What an OUT_OF_SERVICE channel
then keeps beside its state is read from the rule's words (log 23). -/
def Channel.rewritten (c : Channel) (f : PointFields) : Channel :=
  let moved := { c with cls := f.cls, line := f.line, warmCount := f.warmCount, window := f.window,
                        fallback := f.fallback }
  if c.cls = f.cls ∧ c.line = f.line then moved
  else if c.state = .outOfService then { moved with own := none }
  else { moved with state := .warming, own := none, seen := false, miss := 0, good := 0 }

/-- The update of a point (R46); a change of state posts for the channel and its dependants, a change of the fallback
alone for the channel (R56). -/
def pointUpdateBody (args : List Byte) (s : State) : Answer :=
  match s.pointFields? (recordArg args), s.channelOfPoint (u16At args 3) with
  | some f, some x =>
    match s.channel x with
    | some c =>
      if f.fallback = some x then answer .refusedRange s
      else
        let s := s.setChannel x (some (c.rewritten f))
        if (c.rewritten f).state ≠ c.state then answer .done (postFrom none false x s)
        else if f.fallback ≠ c.fallback then answer .done (postUpdates none false [x] s)
        else answer .done s
    | none => answer .refusedRange s
  | _, _ => answer .refusedRange s

/-- The channel roles of a line binding. -/
def LineBinding.channelRoles (b : LineBinding) : List (Option Nat) :=
  [b.furnaceTemp, b.o2, b.steamFlow, b.drumLevel] ++ Pollutant.all.map b.pollutant.get

/-- Whether a channel is named as a channel anywhere: by a binding, as a position channel, or as a fallback (R47). -/
def State.channelInUse (s : State) (x : Nat) : Bool :=
  (s.binding .one).channelRoles.any (· == some x) || (s.binding .two).channelRoles.any (· == some x) ||
  s.plantBinding.turbineStatus == some x || s.plantBinding.bypassStatus == some x ||
  (s.actuators.any fun e =>
    match e with
    | some a => a.position == some x
    | none => false) ||
  !(s.dependants x).isEmpty

/-- The deletion of a point (R47). -/
def deletePointBody (args : List Byte) (s : State) : Answer :=
  match s.channelOfPoint (indexArg args) with
  | none => answer .unknown s
  | some x =>
    if s.channelInUse x then answer .refusedInUse s
    else answer .done
      { s.setChannel x none with points := s.points.filter fun p => p.1 ≠ indexArg args }

/-! ### ACTUATORS (R79 to R82) -/

/-- The actuator that an ACTUATORS record writes, where its coded fields are good (R14); ram state and floors are stored
as the role has them (R79). -/
def Actuator.ofRecord? (rec : List Byte) : Option Actuator :=
  match Role.ofCode? (byteAt rec 2), lineField? (byteAt rec 3), RamState.ofCode? (byteAt rec 14) with
  | some role, some l, some ram =>
    if indexFieldValid 96 (byteAt rec 13) then
      some
        { number := u16At rec 0
          role := role
          line := l
          min := s16At rec 4
          max := s16At rec 6
          maxStep := u16At rec 8
          last := none
          setter := none
          position := indexField (byteAt rec 13)
          ram := if role = .feedRam then ram else .inService
          floor0 := if role.reagent?.isSome then s16At rec 15 else 0
          floor1 := if role.reagent?.isSome then s16At rec 17 else 0
          floor2 := if role.reagent?.isSome then s16At rec 19 else 0 }
    else none
  | _, _, _ => none

/-- The range tests of R79 on a record: min and max, floors, position channel. -/
def State.actuatorFits (s : State) (a : Actuator) : Bool :=
  a.min ≤ a.max &&
  (a.role.reagent?.isNone || (a.floor0 ≤ a.floor1 && a.floor1 ≤ a.floor2 && a.min ≤ a.floor0 && a.floor2 ≤ a.max)) &&
  match a.position with
  | none => true
  | some x =>
    a.role == .feedRam &&
    match s.channel x with
    | some c => c.cls == .position
    | none => false

/-- Whether some entry other than the one of an index meets a test. -/
def State.otherEntry (s : State) (entry : Nat) (test : Actuator → Bool) : Bool :=
  s.actuators.zipIdx.any fun (e, i) =>
    i != entry &&
    match e with
    | some a => test a
    | none => false

/-- Whether a line binding holds an actuator number as its feed group. -/
def LineBinding.feedGroupIs (b : LineBinding) (number : Nat) : Bool := b.feedBound && b.feedGroup == number

/-- Whether a line's ram list names an entry. -/
def State.ramOf (s : State) (l : Line) (entry : Nat) : Bool := (s.rams l).contains entry

/-- Whether a binding relies on the line of an entry: its feed group or its ram list names it (R80). -/
def State.lineRelied (s : State) (entry : Nat) (a : Actuator) : Bool :=
  [Line.one, Line.two].any fun l => (s.binding l).feedGroupIs a.number || s.ramOf l entry

/-- Whether an entry is named by a binding (R80). -/
def State.entryNamed (s : State) (entry : Nat) (a : Actuator) : Bool :=
  s.lineRelied entry a || (s.binding .one).auxBurner == some entry || (s.binding .two).auxBurner == some entry ||
    s.plantBinding.turbineLoad == some entry

/-- Whether an entry is the ram of a stroke in flight (R80). -/
def State.ramInFlight (s : State) (entry : Nat) : Bool :=
  [Line.one, Line.two].any fun l =>
    match (s.feedOf l).engine with
    | .inStroke ram _ => ram == entry
    | _ => false

/-- Whether a write would change what a binding relies on (R80). -/
def State.breaksBinding (s : State) (entry : Nat) (new : Actuator) : Bool :=
  match s.actuator entry with
  | some old =>
    (s.entryNamed entry old && (old.number != new.number || old.role != new.role)) ||
      (s.lineRelied entry old && old.line != new.line)
  | none => false

/-- The entry as stored: the last forwarded value is kept where number and role are (R79). -/
def Actuator.keeping (new : Actuator) (old : Option Actuator) : Actuator :=
  match old with
  | some o => if o.number = new.number ∧ o.role = new.role then { new with last := o.last, setter := o.setter } else new
  | none => new

/-- A ram's state or position channel as written differs from what stood there: the lines whose list names the entry
take it (R82). -/
def ramWritten (entry : Nat) (old : Option Actuator) (new : Actuator) (s : State) : State :=
  match old with
  | some o =>
    if o.ram = new.ram ∧ o.position = new.position then s
    else inTurn [Line.one, Line.two] (fun l s => if s.ramOf l entry then ramChange l s else s) s
  | none => s

/-- WRITE_ENTRY on ACTUATORS: the tests in the order of R79, then the write and what follows it (R82, R93). -/
def writeActuatorBody (args : List Byte) (s : State) : Answer :=
  let entry := indexArg args
  if 47 < entry then answer .badRequest s
  else match Actuator.ofRecord? (recordArg args) with
    | none => answer .refusedRange s
    | some a =>
      if !s.actuatorFits a then answer .refusedRange s
      else if s.otherEntry entry (·.number == a.number) then answer .refusedInUse s
      else if a.role = .turbineLoad ∧ s.otherEntry entry (·.role == .turbineLoad) then answer .refusedInUse s
      else if s.breaksBinding entry a then answer .refusedInUse s
      else if s.ramInFlight entry then answer .refusedBusy s
      else
        let old := s.actuator entry
        let new := a.keeping old
        answer .done (actuatorWriteBounds entry old (ramWritten entry old new (s.setActuator entry (some new))))

/-- DELETE_ENTRY on ACTUATORS (R81). -/
def deleteActuatorBody (args : List Byte) (s : State) : Answer :=
  let entry := indexArg args
  if 47 < entry then answer .badRequest s
  else match s.actuator entry with
    | none => answer .unknown s
    | some a =>
      if s.entryNamed entry a || s.ramInFlight entry then answer .refusedInUse s
      else answer .done (s.setActuator entry none)

/-! ### BINDINGS (R58 to R60) -/

/-- Whether a channel role is none or names a channel of the class it must be. -/
def State.channelFits (s : State) (cls : ChannelClass) (role : Option Nat) : Bool :=
  match role with
  | none => true
  | some x =>
    match s.channel x with
    | some c => c.cls == cls
    | none => false

/-- Whether an actuator role is none or names an entry of the role it must be. -/
def State.entryFits (s : State) (role : Role) (entry : Option Nat) : Bool :=
  match entry with
  | none => true
  | some e =>
    match s.actuator e with
    | some a => a.role == role
    | none => false

/-- The plant binding that a record writes, where every field passes (R14, R58). -/
def State.plantBinding? (s : State) (rec : List Byte) : Option PlantBinding :=
  let b : PlantBinding := ⟨indexField (byteAt rec 0), indexField (byteAt rec 1), indexField (byteAt rec 2)⟩
  if s.channelFits .status b.turbineStatus && s.channelFits .status b.bypassStatus &&
      s.entryFits .turbineLoad b.turbineLoad then some b else none

/-- The line binding of a record's bytes. -/
def LineBinding.ofRecord (rec : List Byte) : LineBinding where
  furnaceTemp := indexField (byteAt rec 0)
  o2 := indexField (byteAt rec 1)
  steamFlow := indexField (byteAt rec 2)
  drumLevel := indexField (byteAt rec 3)
  pollutant :=
    { dust := indexField (byteAt rec 4)
      hcl := indexField (byteAt rec 5)
      so2 := indexField (byteAt rec 6)
      nox := indexField (byteAt rec 7)
      co := indexField (byteAt rec 8)
      toc := indexField (byteAt rec 9) }
  feedBound := byteAt rec 10 == 1
  feedGroup := u16At rec 11
  auxBurner := indexField (byteAt rec 13)
  ramCount := byteAt rec 14
  ramList := (List.range 6).map fun i => byteAt rec (15 + i)
  startRam := byteAt rec 21

/-- The coded fields of a line record, the index fields of the ram list up to the ram count among them; the positions
at and beyond the ram count are ignored (R14, R58). -/
def lineRecordCoded (rec : List Byte) : Bool :=
  ((List.range 10).all fun i => indexFieldValid 96 (byteAt rec i)) && byteAt rec 10 ≤ 1 &&
    indexFieldValid 48 (byteAt rec 13) && byteAt rec 14 ≤ 6 &&
    (List.range (byteAt rec 14)).all fun i => indexFieldValid 48 (byteAt rec (15 + i))

/-- The rams a line binding names. -/
def LineBinding.rams (b : LineBinding) : List Nat := b.ramList.take b.ramCount

/-- The other line. -/
def otherLine : Line → Line
  | .one => .two
  | .two => .one

/-- Whether every field of a line binding names a record that fits (R58). -/
def State.lineBindingFits (s : State) (l : Line) (b : LineBinding) : Bool :=
  s.channelFits .temperature b.furnaceTemp && s.channelFits .oxygen b.o2 && s.channelFits .steamFlow b.steamFlow &&
  s.channelFits .drumLevel b.drumLevel &&
  (Pollutant.all.all fun p => s.channelFits .pollutant (b.pollutant.get p)) &&
  (!b.feedBound || s.actuators.any fun e =>
    match e with
    | some a => a.number == b.feedGroup && a.role == .feedGroup && a.line == some l
    | none => false) &&
  s.entryFits .auxBurner b.auxBurner &&
  (b.rams.all fun e =>
    match s.actuator e with
    | some a => a.role == .feedRam && a.line == some l
    | none => false) &&
  decide b.rams.Nodup && (b.startRam < b.ramCount || b.startRam == 0 && b.ramCount == 0)

/-- Whether a line's ram fields differ between two bindings (R59). -/
def ramFieldsDiffer (a b : LineBinding) : Bool :=
  a.ramCount != b.ramCount || a.rams != b.rams || a.startRam != b.startRam

/-- Whether a line's stroke engine is IN_STROKE. -/
def State.inStroke (s : State) (l : Line) : Bool :=
  match (s.feedOf l).engine with
  | .inStroke _ _ => true
  | _ => false

/-- An action taken where a role has changed. -/
def whenChanged (old new : Option Nat) (acts : List (State → State)) : List (State → State) :=
  if old = new then [] else acts

/-- What the changed channel roles of a line deliver, one update to each job that receives the role (R60), and what the
changed ram fields have the feed admission unit do (R59, log 31). Updates that are not fresh change nothing at an
averager. -/
def lineRebound (l : Line) (old new : LineBinding) (s : State) : State :=
  let rams : List (State → State) := if ramFieldsDiffer old new then [ramChange l] else []
  deliver
    [whenChanged old.furnaceTemp new.furnaceTemp [evalFurnace l], rams,
     whenChanged old.steamFlow new.steamFlow [dispatchSteam] ++ whenChanged old.drumLevel new.drumLevel [dispatchSteam],
     whenChanged old.drumLevel new.drumLevel (runbackDrumActions l),
     whenChanged old.drumLevel new.drumLevel [drumTest l false]] s

/-- A write of a line binding; the refusals stand in the order coded fields, IN_USE, fit, BUSY (log 15). -/
def writeLineBinding (l : Line) (rec : List Byte) (s : State) : Answer :=
  let old := s.binding l
  let new := LineBinding.ofRecord rec
  if !lineRecordCoded rec then answer .refusedRange s
  else if new.feedBound && (s.binding (otherLine l)).feedGroupIs new.feedGroup then answer .refusedInUse s
  else if !s.lineBindingFits l new then answer .refusedRange s
  else if ramFieldsDiffer old new && s.inStroke l then answer .refusedBusy s
  else
    let s := { s with lineBinding := s.lineBinding.set l new }
    let s := if ramFieldsDiffer old new then s.modFeed l fun f => { f with rotation := new.startRam } else s
    answer .done (lineRebound l old new s)

/-- WRITE_ENTRY on BINDINGS (R58): the record of the index named. -/
def writeBindingBody (args : List Byte) (s : State) : Answer :=
  match indexArg args with
  | 0 =>
    match s.plantBinding? (recordArg args) with
    | none => answer .refusedRange s
    | some new =>
      let old := s.plantBinding
      answer .done
        (deliver [whenChanged old.turbineStatus new.turbineStatus [dispatchTurbine] ++
          whenChanged old.bypassStatus new.bypassStatus [dispatchBypass]] { s with plantBinding := new })
  | 1 => writeLineBinding .one (recordArg args) s
  | 2 => writeLineBinding .two (recordArg args) s
  | _ => answer .badRequest s

/-- The form test of WRITE_ENTRY on BINDINGS: 6 bytes at index 0, 25 at any other (R11). -/
def bindingSized (r : Request) (s : State) : Answer :=
  if r.args.length = (if indexArg r.args = 0 then 6 else 25) then writeBindingBody r.args s
  else answer .badRequest s

/-! ### FEED_SETTINGS, RUNBACK, DISPATCH (R117, R161, R155) -/

/-- WRITE_ENTRY on FEED_SETTINGS (R117). -/
def writeFeedSettingsBody (args : List Byte) (s : State) : Answer :=
  let fields := recordArg args
  let ttl := u16At fields 0
  let timeout := byteAt fields 2
  let settle := byteAt fields 3
  match lineArg? (indexArg args) with
  | none => answer .badRequest s
  | some l =>
    if 10 ≤ ttl ∧ ttl ≤ 600 ∧ 2 ≤ timeout ∧ timeout ≤ 60 ∧ 1 ≤ settle ∧ settle ≤ 120 then
      answer .done (s.modFeed l fun f => { f with ttl := ttl, timeout := timeout, settle := settle })
    else answer .refusedRange s

/-- WRITE_ENTRY on RUNBACK, its tests in the order of R161. -/
def writeRunbackBody (args : List Byte) (s : State) : Answer :=
  let fields := recordArg args
  let depth := u16At fields 0
  let floor := u16At fields 2
  let hold := u16At fields 4
  let select := byteAt fields 6
  if indexArg args ≠ 0 then answer .badRequest s
  else if ¬(10 ≤ depth ∧ depth ≤ 600) then answer .refusedRange s
  else if 600 < floor then answer .refusedRange s
  else if ¬(5 ≤ hold ∧ hold ≤ 300) then answer .refusedRange s
  else if 7 < select then answer .refusedRange s
  else if 3 < select then answer .ignored s
  else answer .done
    (s.modRunback fun r => { r with depth := depth, floor := floor, hold := hold, releaseSelect := select })

/-- WRITE_ENTRY on DISPATCH (R155): follow turned ON makes the comparison of R153 at once. -/
def writeDispatchBody (args : List Byte) (s : State) : Answer :=
  let station := byteAt (recordArg args) 0
  let follow := byteAt (recordArg args) 1
  if indexArg args ≠ 0 then answer .badRequest s
  else if 250 < station ∨ 1 < follow then answer .refusedRange s
  else
    let was := s.dispatch.follow
    let s := s.modDispatch fun d => { d with gateway := station, follow := follow == 1 }
    answer .done (if !was && follow == 1 then followAllowed s else s)

/-! ### Enables and the notice station (R183) -/

/-- The enables as an enable set gives them. -/
def Attention.withEnables (a : Attention) (set : Nat) : Attention :=
  { a with causes := a.causes.zipIdx.map fun (c, i) => { c with enable := set.testBit i } }

/-- The occasions at an accepted write: for a station written from 0 every cause, else the causes whose enable went from
off to on, in increasing code (R180, R183). -/
def enableOccasions (before : Attention) (s : State) : State :=
  inTurn Cause.all (fun c s =>
    if (before.station = 0 ∧ s.attention.station ≠ 0) ∨
        (!(before.causes.getD (c.code - 1) CauseRecord.clear).enable && (s.cause c).enable)
    then noticeOccasion c s else s) s

/-- Enables and station written together (R183). -/
def writeNotices (station set : Nat) (s : State) : State :=
  enableOccasions s.attention { s with attention := { s.attention.withEnables set with station := station } }

/-- WRITE_ENTRY on NOTICES (R183). -/
def writeNoticesBody (args : List Byte) (s : State) : Answer :=
  let station := byteAt (recordArg args) 0
  let set := u16At (recordArg args) 1
  if indexArg args ≠ 0 then answer .badRequest s
  else if 250 < station ∨ 32768 ≤ set then answer .refusedRange s
  else answer .done (writeNotices station set s)

/-- SET_NOTICES (R183). -/
def setNoticesBody (args : List Byte) (s : State) : Answer :=
  let set := u16At args 0
  if 32768 ≤ set then answer .refusedRange s
  else answer .done (writeNotices s.attention.station set s)

end Sys2Proof.Machine
end

