-- ==== Sys2Proof/Machine/Management.lean ====
section
/-! DEFINITION. The requests that write no table record (11_management_requests.md, section 11.2): what the owning block
does with each and the status it gives. A body takes the argument area, whose length the form test has settled. -/

namespace Sys2Proof.Machine

/-- A request whose first argument names a line; another value is answered REFUSED_RANGE. -/
def onLine (args : List Byte) (s : State) (body : Line → Answer) : Answer :=
  match lineArg? (byteAt args 0) with
  | some l => body l
  | none => answer .refusedRange s

/-! ### Limit table and plant clock -/

/-- SET_LIMIT (R65). -/
def setLimitBody (args : List Byte) (s : State) : Answer := answerPair (setLimit (byteAt args 0) (s16At args 1) s)

/-- SET_OVERRIDE (R66, R67). -/
def setOverrideBody (args : List Byte) (s : State) : Answer := answerPair (setOverride (byteAt args 0) (s16At args 1) s)

/-- CLEAR_OVERRIDE (R68). -/
def clearOverrideBody (args : List Byte) (s : State) : Answer := answerPair (clearOverride (byteAt args 0) s)

/-- FREEZE (R71). -/
def freezeBody (_args : List Byte) (s : State) : Answer := answerPair (freeze s)

/-- SET_TIME (R43). -/
def setTimeBody (args : List Byte) (s : State) : Answer := answerPair (setTime (u32At args 0) s)

/-! ### Channels (R53, R54) -/

/-- A request that names a channel: REFUSED_RANGE above 95, UNKNOWN for an UNSET channel. -/
def onChannel (args : List Byte) (s : State) (body : Nat → Channel → Answer) : Answer :=
  let x := byteAt args 0
  if 95 < x then answer .refusedRange s
  else match s.channel x with
    | some c => body x c
    | none => answer .unknown s

/-- A channel that warms up again with its own value kept (R53, R54). -/
def Channel.rewarm (c : Channel) : Channel := { c with state := .warming, seen := false, miss := 0, good := 0 }

/-- A channel takes a new state on request and posts its updates (R56). -/
def changeChannel (x : Nat) (c : Channel) (s : State) : Answer :=
  answer .done (postFrom none false x (s.setChannel x (some c)))

/-- SET_CHANNEL_SERVICE (R54). -/
def setChannelServiceBody (args : List Byte) (s : State) : Answer :=
  onChannel args s fun x c =>
    match byteAt args 1, decide (c.state = .outOfService) with
    | 2, false => changeChannel x { c with state := .outOfService } s
    | 1, true => changeChannel x c.rewarm s
    | _, _ => answer .ignored s

/-- REARM_CHANNEL (R53). -/
def rearmChannelBody (args : List Byte) (s : State) : Answer :=
  onChannel args s fun x c =>
    if c.state = .failedOver then changeChannel x c.rewarm s else answer .ignored s

/-! ### Rams and holds (R109, R114, R116) -/

/-- ENABLE_RAM, its tests in the order of R116; the change is posted as R82 gives. -/
def enableRamBody (args : List Byte) (s : State) : Answer :=
  let entry := byteAt args 0
  if 47 < entry then answer .refusedRange s
  else match s.actuator entry with
    | none => answer .unknown s
    | some a =>
      if a.role ≠ .feedRam then answer .refusedRange s
      else if a.ram = .inService then answer .ignored s
      else
        let new := { a with ram := .inService }
        answer .done (ramWritten entry (some a) new (s.setActuator entry (some new)))

/-- HOLD_FEED (R109). -/
def holdFeedBody (args : List Byte) (s : State) : Answer :=
  onLine args s fun l =>
    if (s.feedOf l).holds.manual then answer .ignored s else answer .done (addHold l .manual s)

/-- Whether a HALF_HOUR episode of a line is OPEN (R114). -/
def State.episodeOpen (s : State) (l : Line) : Bool := s.log.any fun e =>
  e.status == .open && e.kind == .halfHour && e.line == l

/-- CLEAR_HOLD of EMISSION (R114). -/
def clearEmission (l : Line) (s : State) : Answer :=
  if !(s.feedOf l).holds.emission then answer .ignored s
  else if s.episodeOpen l || s.lineLimit l .budget ≤ ((s.averagerOf l).minutes : Int) then answer .refusedBusy s
  else answer .done (removeHold l .emission (s.modFeed l fun f => { f with reasons := ReasonSet.empty }))

/-- CLEAR_HOLD (R109, R114). -/
def clearHoldBody (args : List Byte) (s : State) : Answer :=
  onLine args s fun l =>
    match HoldCause.ofCode? (byteAt args 1) with
    | none => answer .refusedRange s
    | some .manual =>
      if (s.feedOf l).holds.manual then answer .done (removeHold l .manual s) else answer .ignored s
    | some .emission => clearEmission l s
    | some c => if (s.feedOf l).holds.get c then answer .refusedBusy s else answer .ignored s

/-! ### Trips and runback (R165, R170, R171) -/

/-- TRIP (R170). -/
def tripBody (args : List Byte) (s : State) : Answer :=
  onLine args s fun l =>
    if (s.tripOf l).causes.manual then answer .ignored s else answer .done (addTripCause l .manual s)

/-- TRIP_RESET: the status and the data byte tell what remains (R171). -/
def tripResetBody (args : List Byte) (s : State) : Answer :=
  onLine args s fun l =>
    ⟨if (s.tripRemaining l).isEmpty then .done else .partly, [u8 (s.tripRemaining l).byte], tripReset l s⟩

/-- STOP_RUNBACK (R165). -/
def stopRunbackBody (_args : List Byte) (s : State) : Answer :=
  if s.runback.anyHolds then answer .refusedBusy s
  else if s.runback.envelope = .idle then answer .ignored s
  else answer .done (envelopeIdle s)

/-! ### Averager, status, capture, attention -/

/-- NEW_YEAR (R131). -/
def newYearBody (args : List Byte) (s : State) : Answer :=
  onLine args s fun l => answer .done (s.modAverager l fun a => { a with minutes := 0 })

/-- The status area, 20 bytes (R13). -/
def State.statusArea (s : State) : List Byte :=
  be32 s.identity.toNat ++ [s.ownStation, u8 s.limits.mode.code] ++ be32 s.plantTime ++
    [u8 (s.feedOf .one).holds.byte, u8 (s.feedOf .two).holds.byte,
     u8 (s.tripOf .one).causes.byte, u8 (s.tripOf .two).causes.byte, u8 s.dispatch.sink.code] ++
    be16 s.dispatch.allowed ++ [u8 s.runback.envelope.code] ++ be16 s.attention.statusSet

/-- READ_STATUS (R191). -/
def readStatusBody (_args : List Byte) (s : State) : Answer := ⟨.done, s.statusArea, s⟩

/-- READ_CAPTURE (R176). -/
def readCaptureBody (args : List Byte) (s : State) : Answer :=
  let slot := byteAt args 0
  let offset := byteAt args 1
  if 7 < slot ∨ 63 < offset then answer .refusedRange s
  else match s.capture.slots.getD slot none with
    | none => ⟨.done, [0xFF, 0] ++ be32 s.capture.missed ++ [0, 0, u8 offset], s⟩
    | some r =>
      if r.bytes.length < offset then answer .refusedRange s
      else ⟨.done, [u8 r.source.code, u8 r.port.code] ++ be32 r.time ++
        [u8 r.disposition.code, u8 r.bytes.length, u8 offset] ++ (r.bytes.drop offset).take 44, s⟩

/-- RELEASE_CAPTURE (R177). -/
def releaseCaptureBody (args : List Byte) (s : State) : Answer :=
  let slot := byteAt args 0
  if 7 < slot then answer .refusedRange s
  else match s.capture.slots.getD slot none with
    | none => answer .ignored s
    | some r => answer .done (s.modCapture fun c =>
        { c with slots := c.slots.set slot none, armed := c.armed.set r.source.code true })

/-- A cause cleared: status, noticed mark and held event (R182). -/
def CauseRecord.cleared (c : CauseRecord) : CauseRecord := { c with status := false, noticed := false, held := none }

/-- CLEAR_ATTENTION (R182). -/
def clearAttentionBody (args : List Byte) (s : State) : Answer :=
  let set := u16At args 0
  if 32768 ≤ set then answer .refusedRange s
  else if Cause.all.any fun c => causeNamed set c && (s.cause c).status then
    answer .done { s with attention := { s.attention with
      causes := s.attention.causes.zipIdx.map fun (c, i) => if set.testBit i && c.status then c.cleared else c } }
  else answer .ignored s

/-- CLEAR_PORT_ERRORS (R6). -/
def clearPortErrorsBody (args : List Byte) (s : State) : Answer :=
  let clear (p : PortId) (s : State) := s.modPort p fun q => { q with errors := ⟨0, 0, 0, 0⟩ }
  match byteAt args 0 with
  | 0 => answer .done (clear .field s)
  | 1 => answer .done (clear .supervisor s)
  | 2 => answer .done (clear .supervisor (clear .field s))
  | _ => answer .refusedRange s

end Sys2Proof.Machine
end

