-- ==== Sys2Proof/Machine/Resets.lean ====
section
/-! DEFINITION. The three resets: POWER_ON, LINE (the assertion of RESET_N and its release) and SOFT (00_scope.md,
Resets; R38, R39, R61, R62, R76, R77, R94, R118, R119, R138 to R140, R157, R158, R172, R173, R178, R184, R192). -/

namespace Sys2Proof.Machine

/-! ### What is common -/

/-- The own station that straps give (R17). -/
def stationOf (straps : BitVec 8) : Byte :=
  if straps = 0#8 ∨ 250 < straps.toNat then 250#8 else straps

/-- The scrub that LINE and SOFT take as part of themselves, in OPERATE (R77). -/
def resetScrub (s : State) : State :=
  match s.limits.mode with
  | .operate => scrub s
  | .commission => s

/-- A tick or a sweep that a unit still owes is taken before a reset (log 27). -/
def settleAll (s : State) : State := settleSweep (settleTick s)

/-! ### POWER_ON -/

/-- POWER_ON: the state of `State.reset`, with the straps read. What belongs to no block of the part is kept: the
identity (R12), the waiting commands, and the model's own supply of marks and free choices. -/
def powerOn (straps : BitVec 8) (s : State) : State :=
  { State.reset with
    identity := s.identity
    ownStation := stationOf straps
    nextMark := s.nextMark
    script := s.script
    freeCount := s.freeCount
    pending := s.pending }

/-! ### LINE -/

/-- The assertion of RESET_N: frames in transmission are abandoned, waiting requests discarded, OPEN entries closed at
plant time (R38, R139, R185). -/
def assertReset (s : State) : State :=
  if s.resetAsserted then s
  else
    let s := settleAll s
    { s with
      resetAsserted := true
      ports :=
        { field := { s.ports.field with transmitting := none }
          supervisor := { s.ports.supervisor with transmitting := none } }
      requests := []
      log := closedByReset s.plantTime s.log
      averager :=
        { one := s.averager.one.noOpenEpisodes
          two := s.averager.two.noOpenEpisodes } }

/-- The state of every block at LINE before the scrub and the EMISSION holds: that of POWER_ON, with the limit table, the
abnormal minutes and the log kept (R77, R139). -/
def lineBase (straps : BitVec 8) (s : State) : State :=
  { State.afterReset with
    identity := s.identity
    ownStation := stationOf straps
    limits := { s.limits with scrubCount := 0 }
    averager :=
      { one := { Averager.initial with minutes := s.averager.one.minutes }
        two := { Averager.initial with minutes := s.averager.two.minutes } }
    log := s.log
    nextEntry := s.nextEntry
    nextMark := s.nextMark
    script := s.script
    freeCount := s.freeCount
    pending := s.pending }

/-- LINE_RESET: the release of RESET_N. Where RESET_N was not held, the assertion is taken with it (log 10). -/
def lineReset (straps : BitVec 8) (s : State) : State :=
  postBudget .two (postBudget .one (resetScrub (lineBase straps (assertReset s))))

/-! ### SOFT -/

/-- A port at SOFT: queues emptied, transmission abandoned, credit 0; link, counter and error record kept (R39, R5). -/
def Port.soft (q : Port) : Port :=
  { q with transmitting := none, urgent := [], routine := [], transit := [], credit := 0 }

/-- A channel at SOFT (R62). -/
def Channel.soft (c : Channel) : Channel :=
  { c with state := .warming, own := none, quality := .bad, seen := false, miss := 0, good := 0 }

/-- A feed admission unit at SOFT, before its hold set is re-evaluated; TRIPPED is there, since RESTART is (R119). -/
def Feed.soft (f : Feed) : Feed :=
  { f with
    queue := []
    engine := .ready
    timeoutCount := 0
    settleCount := 0
    holds := { f.holds with manual := false, emission := false, tripped := true }
    reasons := ReasonSet.empty }

/-- The dispatch unit at SOFT, before it re-evaluates what it reads (R158). -/
def DispatchUnit.soft (d : DispatchUnit) : DispatchUnit :=
  { d with orders := [], target := 0, rate := 0, ramped := 0, cap := none }

/-- The runback unit at SOFT, before the conditions are evaluated (R173); the hold count, not running, is 0 (DESIGN CHOICE,
safe, log 37). -/
def Runback.soft (r : Runback) : Runback :=
  { r with
    lineTrip := ⟨false, false⟩
    drum := ⟨false, false⟩
    envelope := .idle
    cap := none
    holdCount := 0
    holdRunning := false }

/-- The attention unit at SOFT, before the reset's own settings (R184). -/
def Attention.soft (a : Attention) : Attention := { a with causes := a.causes.map CauseRecord.cleared }

/-- Every block at SOFT, before the re-evaluations that post and originate. -/
def softBase (s : State) : State :=
  { s with
    ports := { field := s.ports.field.soft, supervisor := s.ports.supervisor.soft }
    reservation := false
    requests := []
    channels := s.channels.map fun c => c.map Channel.soft
    limits := { s.limits with scrubCount := 0 }
    feed := { one := s.feed.one.soft, two := s.feed.two.soft }
    averager := { one := s.averager.one.soft, two := s.averager.two.soft }
    log := closedByReset s.plantTime s.log
    dispatch := s.dispatch.soft
    runback := s.runback.soft
    trip := { one := TripUnit.initial, two := TripUnit.initial }
    capture := { CaptureStore.initial with missed := s.capture.missed }
    attention := s.attention.soft }

/-- The dispatch unit's re-evaluation at SOFT: steam load, sink state, allowed load; a fall is a turbine leaving ONLINE
(R158). -/
def dispatchRestarted (s : State) : State :=
  recomputeAllowed .urgent (deriveSink
    (s.modDispatch fun d => { d with steamLoad := s.contribution .one + s.contribution .two, online := s.turbineOnline }))

/-- NO_SINK and NO_RAM by their conditions (R119). -/
def evalSinkAndRams (l : Line) (s : State) : State :=
  evalNoRam l (if s.dispatch.sink = .none then addHold l .noSink s else s)

/-- SOFT: the trips with RESTART and the scrub (R172, R77); the jobs' re-evaluations in an order left open, with the
updates of R62; the runback unit's two triggers (R173); EMISSION by the kept minutes (R119). The order among these parts
is the model's (log 17). The causes set are occasions against the kept enables (R184). -/
def softReset (s : State) : State :=
  let cleared := softBase (settleAll s)
  let s := cleared
  let s := setCause .tripTwo (some .two) (s.tripOf .two).causes.byte
    (setCause .tripOne (some .one) (s.tripOf .one).causes.byte s)
  let s := resetScrub s
  let s := inAnyOrder [dispatchRestarted, evalFurnace .one, evalFurnace .two] s
  let s := evalSinkAndRams .two (evalSinkAndRams .one s)
  let s := capTaken (condition (.lineTrip .two) true (condition (.lineTrip .one) true s))
  noticesSince cleared (postBudget .two (postBudget .one s))

/-- RESTART, once its confirm block is found (R192). -/
def restartBody (_args : List Byte) (s : State) : Answer := answer .done (softReset s)

end Sys2Proof.Machine
end

