-- ==== Sys2Proof/Machine/Arrival.lean ====
section
/-! DEFINITION. The arrival of a frame: port checks, built-in classification, match table, guard, transit queue and
capture offers (R1 to R5, R17 to R27, R83 to R88, R143, R168, R174). -/

namespace Sys2Proof.Machine

/-! ### What becomes of a frame -/

/-- A frame decided: the state it leaves, its disposition, the guard's or the clamp's own capture source if it offers one
(R88), and whether the frame was lost to a full transit queue (R26). -/
structure Decided where
  after : State
  disposition : Disposition
  source : Option CaptureSource
  overrun : Bool
deriving DecidableEq, Repr

/-- A frame sent to its transit queue with the disposition it has where it enters (R24, R26). -/
def forwardAs (p : PortId) (f : Frame) (d : Disposition) (src : Option CaptureSource) (s : State) : Decided :=
  let (s, entered) := s.enterTransit p f
  ⟨s, if entered then d else .dropped, src, !entered⟩

/-- The value to which the bound clamp of R27 moves a frame about to enter the downward transit queue unguarded. -/
def State.clampMoves (s : State) (p : PortId) (f : Frame) : Option Int :=
  match p, f.command? with
  | .supervisor, some ⟨number, .set, v⟩ =>
    match (s.entryOf number).bind s.actuator with
    | some a => (s.boundClamp a v).filter fun w => w != v
    | none => none
  | _, _ => none

/-- A frame that goes through without the guard: subject to the bound clamp of R27. -/
def carry (p : PortId) (f : Frame) (s : State) : Decided :=
  match s.clampMoves p f with
  | some v => forwardAs p (f.rewrittenTo v) .rewritten (some .clamp) s
  | none => forwardAs p f .forwarded none s

/-! ### The guard (R83 to R88) -/

/-- The guard's four answers (R24); `absorb` names what the line's feed admission unit is handed. -/
inductive Verdict where
  | unchanged
  | rewritten (v : Int)
  | absorbStroke (l : Line) (length : Nat)
  | absorbStop (l : Line)
  | withhold
deriving DecidableEq, Repr

/-- A value the guard leaves or moves (R83). -/
def Verdict.ofValue (before after : Int) : Verdict := if after = before then .unchanged else .rewritten after

/-- The line whose binding holds an actuator number as its feed group (R85). -/
def State.feedLine (s : State) (number : Nat) : Option Line :=
  [Line.one, Line.two].find? fun l => (s.binding l).feedGroupIs number

/-- The guard's answer to a command for a feed group (R85). -/
def State.feedGroupVerdict (s : State) (c : Command) : Verdict :=
  match s.feedLine c.number, c.verb with
  | some l, .stroke => if 5 ≤ c.value ∧ c.value ≤ 100 then .absorbStroke l c.value.toNat else .withhold
  | some l, .stop => .absorbStop l
  | _, _ => .withhold

/-- The guard's answer to a command for an actuator that a bound clamp acts on (R86, R87). -/
def State.boundedVerdict (s : State) (a : Actuator) (c : Command) : Verdict :=
  match c.verb with
  | .set => Verdict.ofValue c.value ((s.boundClamp a c.value).getD c.value)
  | .stroke => .withhold
  | .stop => .unchanged

/-- The guard's answer to a command for a ranged actuator (R84). -/
def rangedVerdict (a : Actuator) (c : Command) : Verdict :=
  match c.verb with
  | .set => Verdict.ofValue c.value (a.rangeAndStep c.value)
  | .stroke => .unchanged
  | .stop => .unchanged

/-- The guard's answer by the role of the entry (section 5.2). -/
def State.roleVerdict (s : State) (a : Actuator) (c : Command) : Verdict :=
  match a.role with
  | .feedGroup => s.feedGroupVerdict c
  | .feedRam => .withhold
  | .lime => s.boundedVerdict a c
  | .carbon => s.boundedVerdict a c
  | .reagent => s.boundedVerdict a c
  | .turbineLoad => s.boundedVerdict a c
  | .grateZone => rangedVerdict a c
  | .air => rangedVerdict a c
  | .bypass => rangedVerdict a c
  | .auxBurner => rangedVerdict a c
  | .generic => rangedVerdict a c

/-- What the frame path does with the guard's answer (R24, R88). -/
def applyVerdict (f : Frame) (v : Verdict) (s : State) : Decided :=
  match v with
  | .unchanged => forwardAs .supervisor f .forwarded none s
  | .rewritten w => forwardAs .supervisor (f.rewrittenTo w) .rewritten (some .clamp) s
  | .absorbStroke l n => ⟨strokeArrives l n f.src f.seq s, .absorbed, none, false⟩
  | .absorbStop l => ⟨feedStop l s, .absorbed, none, false⟩
  | .withhold => ⟨{ s with withheld := satSucc 65535 s.withheld }, .withheld, some .withheld, false⟩

/-- A COMMAND frame from SUPERVISOR at the guard, its tests in the order of R83. The unguarded count adds 1 at the guard's
decision, also for a frame that is then lost to a full downward queue (DESIGN CHOICE, unsafe, log 34). -/
def guardFrame (f : Frame) (s : State) : Decided :=
  match f.command? with
  | none => applyVerdict f .withhold s
  | some c =>
    match (s.entryOf c.number).bind s.actuator with
    | none => applyVerdict f .unchanged { s with unguarded := satSucc 65535 s.unguarded }
    | some a => applyVerdict f (s.roleVerdict a c) s

/-! ### The match table (R21, R23, R24) -/

def Direction.fits : Direction → PortId → Bool
  | .up, .field => true
  | .down, .supervisor => true
  | .either, _ => true
  | _, _ => false

/-- Whether a frame's bytes agree with a slot's value where its mask has ones, at the offsets below 24 that it has. -/
def maskedEqual : List Byte → List Byte → List Byte → Bool
  | m :: ms, v :: vs, b :: bs => (b &&& m == v &&& m) && maskedEqual ms vs bs
  | _, _, _ => true

/-- Whether an enabled slot matches a frame that arrived on a port (R21). -/
def MatchSlot.matches (m : MatchSlot) (p : PortId) (bytes : List Byte) : Bool :=
  m.enable && m.direction.fits p && m.minLength ≤ bytes.length && maskedEqual m.mask m.value bytes

/-- The slot that decides a frame: the first that matches. -/
def State.decidingSlot (s : State) (p : PortId) (bytes : List Byte) : Option Nat :=
  s.matchTable.findIdx? fun m => m.matches p bytes

/-- The action of a slot on a frame (R23, R24). -/
def actOn (a : Action) (p : PortId) (f : Frame) (s : State) : Decided :=
  match a with
  | .forward => carry p f s
  | .drop => ⟨s, .dropped, none, false⟩
  | .samples =>
    if f.kind = kindSample then forwardAs p f .forwarded none (takeSample f.payload s) else carry p f s
  | .guard =>
    if f.kind = kindCommand ∧ p = .supervisor then guardFrame f s else forwardAs p f .forwarded none s

/-! ### Offers, and the end of an arrival (R25, R88, R168) -/

/-- The offers of a frame's sources, with its disposition as finally settled and its bytes as they arrived. -/
def arrivalOffers (p : PortId) (bytes : List Byte) (time : Nat) (d : Disposition) (sources : List CaptureSource) :
    List (State → State) :=
  sources.map fun src => captureOffer ⟨src, p, time, d, bytes⟩

/-- The sources that a decided frame is offered from: its slot's, where that captures, the guard's or clamp's, and
TRIP_FRAME for each trip unit that owes an offer. -/
def Decided.sources (x : Decided) (slot : Option CaptureSource) : List CaptureSource :=
  slot.toList ++ x.source.toList ++ List.replicate x.after.tripOffers .tripFrame

/-- The end of an arrival: the offers in an order left open (R175), then the overrun of a lost frame (R26). -/
def finishArrival (p : PortId) (bytes : List Byte) (slot : Option CaptureSource) (x : Decided) : State :=
  let s := inAnyOrder (arrivalOffers p bytes x.after.plantTime x.disposition (x.sources slot))
    { x.after with tripOffers := 0 }
  if x.overrun then portError .overrun p s else s

/-- A frame at the match table (R21). -/
def matchFrame (p : PortId) (bytes : List Byte) (f : Frame) (s : State) : State :=
  match s.decidingSlot p bytes with
  | none => finishArrival p bytes none (carry p f s)
  | some n =>
    let slot := s.matchTable.getD n MatchSlot.initial
    finishArrival p bytes (if slot.capture then some (.slot (Fin.ofNat 24 n)) else none) (actOn slot.action p f s)

/-! ### Classification and arrival (R1, R18 to R20) -/

/-- A MANAGE frame for the part from SUPERVISOR (R19). -/
def requestArrives (f : Frame) (s : State) : State :=
  if s.requests.length < 4 then { s with requests := s.requests ++ [⟨f, s.plantTime⟩] }
  else portError .stray .supervisor s

/-- An ORDER frame for the part from the gateway (R20). -/
def orderArrives (f : Frame) (s : State) : State :=
  if f.payload.length = 11 then handleOrder f s else portError .stray .supervisor s

/-- The classifier's tests, in the order of R18. -/
def classify (p : PortId) (bytes : List Byte) (f : Frame) (s : State) : State :=
  if f.dest = s.ownStation then
    if f.kind = kindManage ∧ p = .supervisor then requestArrives f s
    else if f.kind = kindOrder ∧ p = .supervisor ∧ s.dispatch.gateway ≠ 0 ∧ f.src.toNat = s.dispatch.gateway then
      orderArrives f s
    else portError .stray p s
  else matchFrame p bytes f s

/-- FRAME_ARRIVAL: the length check, the check value test, and the classifier (R1). A frame cannot arrive while the
port's link is DOWN (R35, log 9). -/
def frameArrival (p : PortId) (bytes : List Byte) : State → State := unlessHeld (asEvent fun s =>
  if !(s.port p).linkUp then s
  else if !lengthCheck bytes then portError .length p s
  else if !checkTest bytes then portError .check p s
  else classify p bytes (Frame.parse bytes) s)

end Sys2Proof.Machine
end

