-- ==== Sys2Proof/Machine/EventCommands.lean ====
section
/-! DEFINITION. The meanings of the commands that are events of the ports, the supply, the reset line, the clock and the
storage: one for each row. -/

namespace Sys2Proof.Machine

/-- POWER_ON: every block takes its POWER_ON state (R38, R61, R76, R94, R118, R138, R157, R172, R173, R178, R184). -/
def execPowerOn (straps : BitVec 8) (s : State) : Host.Outcome State Fault Refusal := .next (powerOn straps s)

/-- RESET_N_ASSERT (R38, R139). -/
def execResetNAssert (s : State) : Host.Outcome State Fault Refusal := .next (assertReset s)

/-- LINE_RESET (R38, R61, R77, R139, R172). -/
def execLineReset (straps : BitVec 8) (s : State) : Host.Outcome State Fault Refusal := .next (lineReset straps s)

/-- LINK_DOWN (R35). -/
def execLinkDown (p : PortId) (s : State) : Host.Outcome State Fault Refusal := .next (linkDown p s)

/-- LINK_UP (R35). -/
def execLinkUp (p : PortId) (s : State) : Host.Outcome State Fault Refusal := .next (linkUp p s)

/-- FRAME_ARRIVAL (R1). -/
def execFrameArrival (p : PortId) (bytes : List Byte) (s : State) : Host.Outcome State Fault Refusal := .next (frameArrival p bytes s)

/-- TRANSMISSION_START (R33). -/
def execTransmissionStart (p : PortId) (s : State) : Host.Outcome State Fault Refusal := .next (transmissionStart p s)

/-- TRANSMISSION_COMPLETION (R34). -/
def execTransmissionCompletion (p : PortId) (s : State) : Host.Outcome State Fault Refusal := .next (transmissionCompletion p s)

/-- SECOND_TICK (R40, R41). -/
def execSecondTick (order : List TickUnit) (s : State) : Host.Outcome State Fault Refusal := .next (secondTick order s)

/-- STROKE_EXPIRY (R96). -/
def execStrokeExpiry (l : Line) (s : State) : Host.Outcome State Fault Refusal := .next (strokeExpiry l s)

/-- STROKE_TIMEOUT (R104). -/
def execStrokeTimeout (l : Line) (s : State) : Host.Outcome State Fault Refusal := .next (strokeTimeout l s)

/-- SETTLE_END (R105). -/
def execSettleEnd (l : Line) (s : State) : Host.Outcome State Fault Refusal := .next (settleEnd l s)

/-- ORDER_ACTIVATION (R147). -/
def execOrderActivation (s : State) : Host.Outcome State Fault Refusal := .next (orderActivation s)

/-- RUNBACK_HOLD_EXPIRY (R163). -/
def execRunbackHoldExpiry (s : State) : Host.Outcome State Fault Refusal := .next (runbackHoldExpiry s)

/-- INTEGRITY_SCRUB (R73, R74). -/
def execIntegrityScrub (s : State) : Host.Outcome State Fault Refusal := .next (integrityScrub s)

/-- STORAGE_FAULT (R74). -/
def execStorageFault (code : BitVec 16) (s : State) : Host.Outcome State Fault Refusal := .next (storageFault code s)

/-- BOUNDARY_CLOSE (R123). -/
def execBoundaryClose (l : Line) (s : State) : Host.Outcome State Fault Refusal := .next (boundaryReached l s)

/-- SWEEP (R42). -/
def execSweep (order : List SweepUnit) (s : State) : Host.Outcome State Fault Refusal := .next (sweep order s)

/-- CHANNEL_LOST (R52). -/
def execChannelLost (c : Nat) (s : State) : Host.Outcome State Fault Refusal := .next (channelLost c s)

/-- DRUM_GRACE_EXPIRY (R169). -/
def execDrumGraceExpiry (l : Line) (s : State) : Host.Outcome State Fault Refusal := .next (drumGraceExpiry l s)

end Sys2Proof.Machine
end

