-- ==== Sys2Proof/Machine/RequestCommands.lean ====
section
/-! DEFINITION. The meanings of the commands that are executions of a management request: one for each row. Each names the
form its argument area must have (R11) and the owning block's part. -/

namespace Sys2Proof.Machine

/-- UNKNOWN_REQUEST: LEN 0, an unknown code, or a WRITE_ENTRY that names no table is answered BAD_REQUEST (R11). -/
def execUnknownRequest (s : State) : Host.Outcome State Fault Refusal :=
  .next (serve .unknownRequest (fun _ s => answer .badRequest s) s)

/-- READ_TABLE (R189). -/
def execReadTable (s : State) : Host.Outcome State Fault Refusal :=
  .next (serve .readTable (sized 4 readTableBody) s)

/-- WRITE_ENTRY_MATCH (R22). -/
def execWriteEntryMatch (s : State) : Host.Outcome State Fault Refusal :=
  .next (serve .writeEntryMatch (sized 53 writeMatchBody) s)

/-- POINT_INSERT (R45). -/
def execPointInsert (s : State) : Host.Outcome State Fault Refusal :=
  .next (serve .pointInsert (sized 11 pointInsertBody) s)

/-- POINT_UPDATE (R46). -/
def execPointUpdate (s : State) : Host.Outcome State Fault Refusal :=
  .next (serve .pointUpdate (sized 11 pointUpdateBody) s)

/-- WRITE_ENTRY_ACTUATORS (R79, R80, R93). -/
def execWriteEntryActuators (s : State) : Host.Outcome State Fault Refusal :=
  .next (serve .writeEntryActuators (sized 24 writeActuatorBody) s)

/-- WRITE_ENTRY_BINDINGS (R58 to R60). -/
def execWriteEntryBindings (s : State) : Host.Outcome State Fault Refusal :=
  .next (serve .writeEntryBindings bindingSized s)

/-- WRITE_ENTRY_FEED_SETTINGS (R117). -/
def execWriteEntryFeedSettings (s : State) : Host.Outcome State Fault Refusal :=
  .next (serve .writeEntryFeedSettings (sized 7 writeFeedSettingsBody) s)

/-- WRITE_ENTRY_RUNBACK (R161). -/
def execWriteEntryRunback (s : State) : Host.Outcome State Fault Refusal :=
  .next (serve .writeEntryRunback (sized 10 writeRunbackBody) s)

/-- WRITE_ENTRY_DISPATCH (R155). -/
def execWriteEntryDispatch (s : State) : Host.Outcome State Fault Refusal :=
  .next (serve .writeEntryDispatch (sized 5 writeDispatchBody) s)

/-- WRITE_ENTRY_NOTICES (R183). -/
def execWriteEntryNotices (s : State) : Host.Outcome State Fault Refusal :=
  .next (serve .writeEntryNotices (sized 6 writeNoticesBody) s)

/-- WRITE_ENTRY_READ_ONLY: whatever its length, BAD_REQUEST (R11, R14). -/
def execWriteEntryReadOnly (s : State) : Host.Outcome State Fault Refusal :=
  .next (serve .writeEntryReadOnly (fun _ s => answer .badRequest s) s)

/-- DELETE_ENTRY_POINTS (R47). -/
def execDeleteEntryPoints (s : State) : Host.Outcome State Fault Refusal :=
  .next (serve .deleteEntryPoints (sized 3 deletePointBody) s)

/-- DELETE_ENTRY_ACTUATORS (R81). -/
def execDeleteEntryActuators (s : State) : Host.Outcome State Fault Refusal :=
  .next (serve .deleteEntryActuators (sized 3 deleteActuatorBody) s)

/-- DELETE_ENTRY_REFUSED: whatever its length, BAD_REQUEST (R11, R14, R190). -/
def execDeleteEntryRefused (s : State) : Host.Outcome State Fault Refusal :=
  .next (serve .deleteEntryRefused (fun _ s => answer .badRequest s) s)

/-- SET_LIMIT (R65). -/
def execSetLimit (s : State) : Host.Outcome State Fault Refusal :=
  .next (serve .setLimit (sized 3 setLimitBody) s)

/-- SET_OVERRIDE (R66, R67). -/
def execSetOverride (s : State) : Host.Outcome State Fault Refusal :=
  .next (serve .setOverride (sized 3 setOverrideBody) s)

/-- CLEAR_OVERRIDE (R68). -/
def execClearOverride (s : State) : Host.Outcome State Fault Refusal :=
  .next (serve .clearOverride (sized 1 clearOverrideBody) s)

/-- FREEZE (R71). -/
def execFreeze (s : State) : Host.Outcome State Fault Refusal :=
  .next (serve .freeze (confirmed 0 freezeBody) s)

/-- SET_TIME (R43, R44). -/
def execSetTime (s : State) : Host.Outcome State Fault Refusal :=
  .next (serve .setTime (sized 4 setTimeBody) s)

/-- SET_CHANNEL_SERVICE (R54). -/
def execSetChannelService (s : State) : Host.Outcome State Fault Refusal :=
  .next (serve .setChannelService (sized 2 setChannelServiceBody) s)

/-- REARM_CHANNEL (R53). -/
def execRearmChannel (s : State) : Host.Outcome State Fault Refusal :=
  .next (serve .rearmChannel (sized 1 rearmChannelBody) s)

/-- ENABLE_RAM (R116). -/
def execEnableRam (s : State) : Host.Outcome State Fault Refusal :=
  .next (serve .enableRam (sized 1 enableRamBody) s)

/-- HOLD_FEED (R109). -/
def execHoldFeed (s : State) : Host.Outcome State Fault Refusal :=
  .next (serve .holdFeed (sized 1 holdFeedBody) s)

/-- CLEAR_HOLD (R109, R114). -/
def execClearHold (s : State) : Host.Outcome State Fault Refusal :=
  .next (serve .clearHold (sized 2 clearHoldBody) s)

/-- TRIP (R170). -/
def execTrip (s : State) : Host.Outcome State Fault Refusal :=
  .next (serve .trip (sized 1 tripBody) s)

/-- TRIP_RESET (R171). -/
def execTripReset (s : State) : Host.Outcome State Fault Refusal :=
  .next (serve .tripReset (confirmed 1 tripResetBody) s)

/-- STOP_RUNBACK (R165). -/
def execStopRunback (s : State) : Host.Outcome State Fault Refusal :=
  .next (serve .stopRunback (sized 0 stopRunbackBody) s)

/-- NEW_YEAR (R131). -/
def execNewYear (s : State) : Host.Outcome State Fault Refusal :=
  .next (serve .newYear (confirmed 1 newYearBody) s)

/-- READ_STATUS (R191). -/
def execReadStatus (s : State) : Host.Outcome State Fault Refusal :=
  .next (serve .readStatus (sized 0 readStatusBody) s)

/-- READ_CAPTURE (R176). -/
def execReadCapture (s : State) : Host.Outcome State Fault Refusal :=
  .next (serve .readCapture (sized 2 readCaptureBody) s)

/-- RELEASE_CAPTURE (R177). -/
def execReleaseCapture (s : State) : Host.Outcome State Fault Refusal :=
  .next (serve .releaseCapture (sized 1 releaseCaptureBody) s)

/-- CLEAR_ATTENTION (R182). -/
def execClearAttention (s : State) : Host.Outcome State Fault Refusal :=
  .next (serve .clearAttention (sized 2 clearAttentionBody) s)

/-- CLEAR_PORT_ERRORS (R6). -/
def execClearPortErrors (s : State) : Host.Outcome State Fault Refusal :=
  .next (serve .clearPortErrors (sized 1 clearPortErrorsBody) s)

/-- SET_NOTICES (R183). -/
def execSetNotices (s : State) : Host.Outcome State Fault Refusal :=
  .next (serve .setNotices (sized 2 setNoticesBody) s)

/-- RESTART (R192). -/
def execRestart (s : State) : Host.Outcome State Fault Refusal :=
  .next (serve .restart (confirmed 0 restartBody) s)

end Sys2Proof.Machine
end

