-- ==== Sys2Proof/Machine/Dispatch.lean ====
section
/-! DEFINITION. The effect of a command on everything but the queue: one arm for each command. -/

namespace Sys2Proof.Machine

def exec (i : Instr) (s : State) : Host.Outcome State Fault Refusal :=
  match i with
  | .powerOn straps => Sys2Proof.Machine.execPowerOn straps s
  | .resetNAssert => Sys2Proof.Machine.execResetNAssert s
  | .lineReset straps => Sys2Proof.Machine.execLineReset straps s
  | .linkDown p => Sys2Proof.Machine.execLinkDown p s
  | .linkUp p => Sys2Proof.Machine.execLinkUp p s
  | .frameArrival p bytes => Sys2Proof.Machine.execFrameArrival p bytes s
  | .transmissionStart p => Sys2Proof.Machine.execTransmissionStart p s
  | .transmissionCompletion p => Sys2Proof.Machine.execTransmissionCompletion p s
  | .secondTick order => Sys2Proof.Machine.execSecondTick order s
  | .strokeExpiry l => Sys2Proof.Machine.execStrokeExpiry l s
  | .strokeTimeout l => Sys2Proof.Machine.execStrokeTimeout l s
  | .settleEnd l => Sys2Proof.Machine.execSettleEnd l s
  | .orderActivation => Sys2Proof.Machine.execOrderActivation s
  | .runbackHoldExpiry => Sys2Proof.Machine.execRunbackHoldExpiry s
  | .integrityScrub => Sys2Proof.Machine.execIntegrityScrub s
  | .storageFault code => Sys2Proof.Machine.execStorageFault code s
  | .boundaryClose l => Sys2Proof.Machine.execBoundaryClose l s
  | .sweep order => Sys2Proof.Machine.execSweep order s
  | .channelLost c => Sys2Proof.Machine.execChannelLost c s
  | .drumGraceExpiry l => Sys2Proof.Machine.execDrumGraceExpiry l s
  | .unknownRequest => Sys2Proof.Machine.execUnknownRequest s
  | .readTable => Sys2Proof.Machine.execReadTable s
  | .writeEntryMatch => Sys2Proof.Machine.execWriteEntryMatch s
  | .pointInsert => Sys2Proof.Machine.execPointInsert s
  | .pointUpdate => Sys2Proof.Machine.execPointUpdate s
  | .writeEntryActuators => Sys2Proof.Machine.execWriteEntryActuators s
  | .writeEntryBindings => Sys2Proof.Machine.execWriteEntryBindings s
  | .writeEntryFeedSettings => Sys2Proof.Machine.execWriteEntryFeedSettings s
  | .writeEntryRunback => Sys2Proof.Machine.execWriteEntryRunback s
  | .writeEntryDispatch => Sys2Proof.Machine.execWriteEntryDispatch s
  | .writeEntryNotices => Sys2Proof.Machine.execWriteEntryNotices s
  | .writeEntryReadOnly => Sys2Proof.Machine.execWriteEntryReadOnly s
  | .deleteEntryPoints => Sys2Proof.Machine.execDeleteEntryPoints s
  | .deleteEntryActuators => Sys2Proof.Machine.execDeleteEntryActuators s
  | .deleteEntryRefused => Sys2Proof.Machine.execDeleteEntryRefused s
  | .setLimit => Sys2Proof.Machine.execSetLimit s
  | .setOverride => Sys2Proof.Machine.execSetOverride s
  | .clearOverride => Sys2Proof.Machine.execClearOverride s
  | .freeze => Sys2Proof.Machine.execFreeze s
  | .setTime => Sys2Proof.Machine.execSetTime s
  | .setChannelService => Sys2Proof.Machine.execSetChannelService s
  | .rearmChannel => Sys2Proof.Machine.execRearmChannel s
  | .enableRam => Sys2Proof.Machine.execEnableRam s
  | .holdFeed => Sys2Proof.Machine.execHoldFeed s
  | .clearHold => Sys2Proof.Machine.execClearHold s
  | .trip => Sys2Proof.Machine.execTrip s
  | .tripReset => Sys2Proof.Machine.execTripReset s
  | .stopRunback => Sys2Proof.Machine.execStopRunback s
  | .newYear => Sys2Proof.Machine.execNewYear s
  | .readStatus => Sys2Proof.Machine.execReadStatus s
  | .readCapture => Sys2Proof.Machine.execReadCapture s
  | .releaseCapture => Sys2Proof.Machine.execReleaseCapture s
  | .clearAttention => Sys2Proof.Machine.execClearAttention s
  | .clearPortErrors => Sys2Proof.Machine.execClearPortErrors s
  | .setNotices => Sys2Proof.Machine.execSetNotices s
  | .restart => Sys2Proof.Machine.execRestart s

end Sys2Proof.Machine
end

