-- ==== Sys2Proof/Safety.lean ====
section
/-! DEFINITION. The terms that statements use: when a request can execute and what its end looks like, and the conditions
that the spec says hold of the part at every moment. -/

namespace Sys2Proof.Machine

/-! ### Executions of requests -/

/-- The request at the head of the queue can execute, and it is one of the row named (R186). -/
def Ready (row : Instr) (r : Request) (rest : List Request) (s : State) : Prop :=
  s.resetAsserted = false ∧ s.requests = r :: rest ∧ (s.port .supervisor).routine.length < 16 ∧ s.rowOf r = row

/-- The REPLY that answers a request (R187). -/
def replyTo (r : Request) (station : Byte) (st : Status) (data : List Byte) : Frame :=
  { dest := r.frame.src
    src := station
    kind := 0x41#8
    seq := r.frame.seq
    flags := 0x02#8
    payload := u8 r.code :: u8 st.code :: data }

/-- A state whose request has been answered: the requests behind it remain, the reservation is over, and the REPLY is the
last frame of the SUPERVISOR ROUTINE queue. -/
def Answered (r : Request) (rest : List Request) (st : Status) (data : List Byte) (station : Byte) (t : State) : Prop :=
  t.requests = rest ∧ t.reservation = false ∧
    ∃ mark before, (t.port .supervisor).routine = before ++ [⟨mark, replyTo r station st data⟩]

/-- A state that differs from `u` by an answered request alone. -/
def withReply (r : Request) (rest : List Request) (st : Status) (data : List Byte) (u : State) : State :=
  { u with
    requests := rest
    reservation := false
    nextMark := u.nextMark + 1
    ports :=
      { u.ports with
        supervisor :=
          { u.ports.supervisor with
            routine := u.ports.supervisor.routine ++ [⟨u.nextMark, replyTo r u.ownStation st data⟩] } } }

/-- A confirm block for the part's identity in an argument area (R12). -/
def Confirms (r : Request) (s : State) : Prop := findConfirm (identityTriple s.identity) r.args 0 = true

/-- The rows that execute a management request. -/
def isRequestRow : Instr → Bool
  | .powerOn _ => false
  | .resetNAssert => false
  | .lineReset _ => false
  | .linkDown _ => false
  | .linkUp _ => false
  | .frameArrival _ _ => false
  | .transmissionStart _ => false
  | .transmissionCompletion _ => false
  | .secondTick _ => false
  | .strokeExpiry _ => false
  | .strokeTimeout _ => false
  | .settleEnd _ => false
  | .orderActivation => false
  | .runbackHoldExpiry => false
  | .integrityScrub => false
  | .storageFault _ => false
  | .boundaryClose _ => false
  | .sweep _ => false
  | .channelLost _ => false
  | .drumGraceExpiry _ => false
  | _ => true

/-- The commands that are a reset, or a part of one. -/
def isReset : Instr → Bool
  | .powerOn _ => true
  | .resetNAssert => true
  | .lineReset _ => true
  | .restart => true
  | _ => false

/-! ### What the arbiter sends -/

/-- The table of R33: the frame that a port sends next, and the port once it has left its queue. -/
inductive Port.Sends (q : Port) : Frame → Port → Prop where
  | urgent (w : Waiting) (ws : List Waiting) (h : q.urgent = w :: ws) : q.Sends w.frame { q with urgent := ws }
  | turn (w : Waiting) (ws : List Waiting) (hu : q.urgent = []) (h : q.routine = w :: ws) (hc : q.credit = 8) :
      q.Sends w.frame { q with routine := ws, credit := 0 }
  | transit (w : Waiting) (ws : List Waiting) (hu : q.urgent = []) (h : q.transit = w :: ws)
      (hc : q.routine ≠ [] → q.credit ≠ 8) :
      q.Sends w.frame { q with transit := ws, credit := if q.routine = [] then q.credit else q.credit + 1 }
  | routine (w : Waiting) (ws : List Waiting) (hu : q.urgent = []) (ht : q.transit = []) (h : q.routine = w :: ws) :
      q.Sends w.frame { q with routine := ws, credit := 0 }

/-- No frame waits in a port's three queues. -/
def Port.Quiet (q : Port) : Prop := q.urgent = [] ∧ q.routine = [] ∧ q.transit = []

/-- No unit owes a second tick or a sweep. -/
def State.settled (s : State) : Prop := s.owedTick = [] ∧ s.owedSweep = []

/-- Two states agree on everything but ports, attention unit, and the frame mark. -/
def SameButNotices (s t : State) : Prop :=
  { t with ports := s.ports, attention := s.attention, nextMark := s.nextMark } = s

/-- What the NOTICEs of an event that set some of the causes named may change, and nothing else does: frames enter the two
SUPERVISOR origin queues at the tail, each of them a NOTICE to the notice station, at most one for each cause named and one
for ORIGIN_LOSS; the sequence counter moves only where a frame enters; enables and station stay; the records of the causes
named and of ORIGIN_LOSS alone may change. Where none of the causes named has a NOTICE to come, ports, frame mark and
ORIGIN_LOSS stay as they stand too (R28, R31, R180). `s` is the state with the event's other effects. -/
def OnlyNotices (causes : List Cause) (s t : State) : Prop :=
  SameButNotices s t ∧ t.port .field = s.port .field ∧
  (∃ urgent routine seq,
    t.port .supervisor =
      { s.port .supervisor with
        urgent := (s.port .supervisor).urgent ++ urgent
        routine := (s.port .supervisor).routine ++ routine
        seq := seq } ∧
    (urgent ++ routine = [] → seq = (s.port .supervisor).seq) ∧ urgent.length + routine.length ≤ causes.length + 1 ∧
    ∀ w ∈ urgent ++ routine,
      w.frame.kind = 0x50#8 ∧ w.frame.dest = u8 s.attention.station ∧ w.frame.src = s.ownStation) ∧
  t.attention.station = s.attention.station ∧ (∀ c, (t.cause c).enable = (s.cause c).enable) ∧
  (∀ c, c ∉ causes → c ≠ .originLoss → t.cause c = s.cause c) ∧
  ((∀ c ∈ causes, (s.cause c).status = true ∨ (s.cause c).enable = false ∨ (s.cause c).noticed = true ∨
      s.attention.station = 0) →
    t.ports = s.ports ∧ t.nextMark = s.nextMark ∧ (.originLoss ∉ causes → t.cause .originLoss = s.cause .originLoss))

/-- Two states' actuator tables agree on everything but the last forwarded values. -/
def SameActuators (s t : State) : Prop :=
  t.actuators.map (Option.map fun a => { a with last := none, setter := none }) =
    s.actuators.map (Option.map fun a => { a with last := none, setter := none })

/-! ### Conditions the spec says hold at every moment -/

/-- While a line's trip cause set is non-empty, its hold set contains TRIPPED (R110, R167). -/
def State.tripsHoldFeed (s : State) : Prop :=
  ∀ l, (s.tripOf l).causes.isEmpty = false → (s.feedOf l).holds.tripped = true

/-- While the sink state is NONE, both hold sets contain NO_SINK (R112). -/
def State.noSinkHoldsFeed (s : State) : Prop :=
  s.dispatch.sink = .none → ∀ l, (s.feedOf l).holds.noSink = true

/-- EMISSION is held exactly while it has a reason, and it is held whenever the minutes used are at or above the
effective BUDGET (R113, R114). -/
def State.budgetHoldsFeed (s : State) : Prop :=
  ∀ l, ((s.feedOf l).holds.emission = !(s.feedOf l).reasons.isEmpty) ∧
    (s.lineLimit l .budget ≤ ((s.averagerOf l).minutes : Int) → (s.feedOf l).holds.emission = true)

/-- The stroke engine is IN_STROKE only while the line's hold set is empty (R106). -/
def State.strokesUnheld (s : State) : Prop :=
  ∀ l, s.inStroke l = true → (s.feedOf l).holds.isEmpty = true

/-- The records a capture store holds. -/
def CaptureStore.records (c : CaptureStore) : List CaptureRecord := c.slots.filterMap id

/-- A capture source is DISARMED exactly when the store holds a record of it; at most 8 records, at most one for each
source (R174). -/
def CaptureStore.consistent (c : CaptureStore) : Prop :=
  c.slots.length = 8 ∧ c.armed.length = 28 ∧ (c.records.map (·.source)).Nodup ∧
    ∀ src : CaptureSource, (c.armed.getD src.code true = false ↔ ∃ r ∈ c.records, r.source = src)

/-- The queues hold no more than they can: 32 transit frames, 8 URGENT and 16 ROUTINE frames at each port, 4 requests, 8
strokes at each line; between commands no reservation is held, since an execution is one event that ends it (R19, R26, R31,
R32, R95, R186). -/
def State.queuesBounded (s : State) : Prop :=
  (∀ p, (s.port p).transit.length ≤ 32 ∧ (s.port p).urgent.length ≤ 8 ∧ (s.port p).routine.length ≤ 16 ∧
    (s.port p).credit ≤ 8) ∧
    s.reservation = false ∧ s.requests.length ≤ 4 ∧ ∀ l, (s.feedOf l).queue.length ≤ 8

/-- The exceedance log holds at most 32 entries; its OPEN entries are half-hour episodes, at most one for each line and
pollutant and none where the averager holds no open episode; none is OPEN while RESET_N is held (R129, R130, R139). -/
def State.logBounded (s : State) : Prop :=
  s.log.length ≤ 32 ∧ (∀ e ∈ s.log, e.status = .open → e.kind = .halfHour) ∧
    (∀ l p, (s.log.filter fun e => e.isOpenEpisode l p).length ≤
      if (s.pollutantOf l p).openEpisode.isSome then 1 else 0) ∧
    (s.resetAsserted = true → ∀ e ∈ s.log, e.status ≠ .open)

/-- Every table holds as many records as the spec gives it: 24 match slots, 96 channels, 52 limits, 48 actuator entries,
15 attention causes (R21, R63, R78; 03_plant_clock_and_channels.md section 3.2; 10_evidence_capture_and_attention.md
section 10.2). -/
def State.tablesSized (s : State) : Prop :=
  s.matchTable.length = 24 ∧ s.channels.length = 96 ∧ s.limits.entries.length = 52 ∧ s.actuators.length = 48 ∧
    s.attention.causes.length = 15

/-- Whether an override is no looser than the commissioned value (R63). -/
def LimitEntry.tight (i : LimitId) (e : LimitEntry) : Prop :=
  ∀ v, e.override = some v → i.looser v e.commissioned = false

/-- The limit table has its 52 entries, no override is looser than the commissioned value beside it, and no line's
commissioned BED_CEILING is negative (R63, R65, R66). -/
def State.limitsSound (s : State) : Prop :=
  s.limits.entries.length = 52 ∧ (∀ i, (s.limitEntry i).tight i) ∧
    ∀ l, 0 ≤ (s.limitEntry (.line l .bedCeiling)).commissioned

/-- In COMMISSION both trip cause sets hold RESTART and no waste lies on a grate (R76, R171). -/
def State.commissionSafe (s : State) : Prop :=
  s.limits.mode = .commission → ∀ l, (s.tripOf l).causes.restart = true ∧ (s.feedOf l).bed = 0

/-- A line's bed charge never exceeds that line's commissioned BED_CEILING (R98); with the conditions that keep it so. -/
def State.bedsUnderCeiling (s : State) : Prop :=
  s.limitsSound ∧ s.tripsHoldFeed ∧ s.commissionSafe ∧
    ∀ l, ((s.feedOf l).bed : Int) ≤ (s.limitEntry (.line l .bedCeiling)).commissioned

/-- In OPERATE each line's effective DRUM_LOW_LOW is below its effective DRUM_LOW (R67). -/
def State.drumPairsOrdered (s : State) : Prop :=
  s.limits.entries.length = 52 ∧ (∀ i, (s.limitEntry i).tight i) ∧
    (s.limits.mode = .operate → ∀ l, s.lineLimit l .drumLowLow < s.lineLimit l .drumLow)

/-- The order queue holds at most 16 orders, in non-decreasing effective time, no two with the same number (R146). -/
def State.ordersSound (s : State) : Prop :=
  s.dispatch.orders.length ≤ 16 ∧ s.dispatch.orders.Pairwise (fun a b => a.effective ≤ b.effective) ∧
    (s.dispatch.orders.map (·.number)).Nodup

/-- The allowed load is bounded by the ramped setpoint, the steam load, the effective MAX_LOAD and the runback cap
(R149). -/
def State.loadBounded (s : State) : Prop :=
  s.dispatch.allowed ≤ s.dispatch.ramped / 60 ∧ s.dispatch.allowed ≤ s.dispatch.steamLoad ∧
    s.dispatch.allowed ≤ s.maxLoad ∧ ∀ cap, s.dispatch.cap = some cap → s.dispatch.allowed ≤ cap / 60

/-- The point map rises by point number, and a channel holds a point exactly where the map says so (section 3.2 of
03_plant_clock_and_channels.md). -/
def State.pointsSound (s : State) : Prop :=
  s.channels.length = 96 ∧ s.points.Pairwise (fun a b => a.1 < b.1) ∧
    ∀ point x, (point, x) ∈ s.points ↔ ∃ c, s.channel x = some c ∧ c.point = point

end Sys2Proof.Machine
end

