-- ==== Sys2Proof/Certificates/Slice0/Obligations.lean ====
section
/-! DEFINITION. The statements for the provers. -/

open Sys2Proof Sys2Proof.Machine

/-! ### The step, the queue of commands, reset -/

/-- A step takes the command at the front of the queue and runs it on the state with the queue's rest; on an empty queue
the part idles, which is the model's own choice (log 3). -/
def Obligations.StepRunsFrontCommand : Prop :=
  ∀ (c : Instr) (rest : List Instr) (s : State),
    step { s with pending := c :: rest } = exec c { s with pending := rest } ∧
    step { s with pending := [] } = .next { s with pending := [] }

/-- Every command answers a next state; none touches the queue of waiting commands (log 3) or the identity, which is the
same after every reset (R12). -/
def Obligations.ExecKeepsQueueAndIdentity : Prop :=
  ∀ (c : Instr) (s : State), ∃ t, exec c s = .next t ∧ t.pending = s.pending ∧ t.identity = s.identity

/-- POWER_ON takes the reset state whatever stood before, with the own station read from the straps: 1 to 250, else 250
(R17); what is no block's state (identity, waiting commands, the model's own supplies) is kept. The reset state holds the
values the spec gives after POWER_ON. -/
def Obligations.ResetValues : Prop :=
  (∀ (straps : BitVec 8) (s : State),
    exec (.powerOn straps) s = .next { State.reset with
      ownStation := if 1 ≤ straps.toNat ∧ straps.toNat ≤ 250 then straps else 250#8
      identity := s.identity
      nextMark := s.nextMark
      script := s.script
      freeCount := s.freeCount
      pending := s.pending }) ∧
  State.reset.plantTime = 0 ∧ State.reset.limits = ⟨List.replicate 52 ⟨0, none⟩, .commission, 0, 0⟩ ∧
  State.reset.points = [] ∧ State.reset.channels = List.replicate 96 none ∧
  State.reset.actuators = List.replicate 48 none ∧ State.reset.requests = [] ∧ State.reset.reservation = false ∧
  (∀ p, State.reset.port p = ⟨false, none, ⟨0, 0, 0, 0⟩, [], [], [], 0, 0⟩) ∧
  (∀ l, (State.reset.tripOf l).causes = ⟨true, false, false, false⟩ ∧ (State.reset.tripOf l).grace = 0 ∧
    (State.reset.feedOf l).holds = ⟨false, true, true, true, true, true⟩ ∧ (State.reset.feedOf l).bed = 0 ∧
    (State.reset.feedOf l).engine = .ready ∧ (State.reset.feedOf l).queue = [] ∧
    (State.reset.feedOf l).ttl = 60 ∧ (State.reset.feedOf l).timeout = 10 ∧ (State.reset.feedOf l).settle = 5 ∧
    (State.reset.averagerOf l).minutes = 0 ∧ (State.reset.averagerOf l).nextBoundary = 600 ∧
    State.reset.tripOutput l = true) ∧
  State.reset.log = [] ∧ State.reset.nextEntry = 1 ∧
  State.reset.dispatch.sink = .none ∧ State.reset.dispatch.allowed = 0 ∧ State.reset.dispatch.gateway = 0 ∧
  State.reset.dispatch.follow = false ∧ State.reset.runback.envelope = .active ∧ State.reset.runback.cap = some 0 ∧
  State.reset.runback.depth = 100 ∧ State.reset.runback.floor = 0 ∧ State.reset.runback.hold = 60 ∧
  State.reset.runback.releaseSelect = 1 ∧ State.reset.capture = ⟨List.replicate 8 none, List.replicate 28 true, 0⟩ ∧
  State.reset.attention.statusSet = 0x001B ∧ State.reset.attention.enableSet = 0 ∧ State.reset.attn = false

/-- The invariants stated below hold of the part after POWER_ON. -/
def Obligations.InvariantsHoldAtReset : Prop :=
  State.reset.tripsHoldFeed ∧ State.reset.noSinkHoldsFeed ∧ State.reset.budgetHoldsFeed ∧ State.reset.strokesUnheld ∧
  State.reset.capture.consistent ∧ State.reset.queuesBounded ∧ State.reset.tablesSized ∧ State.reset.logBounded ∧ State.reset.bedsUnderCeiling ∧
  State.reset.drumPairsOrdered ∧ State.reset.ordersSound ∧ State.reset.loadBounded ∧ State.reset.pointsSound

/-- The assertion of RESET_N abandons frames in transmission, discards the waiting requests and closes every OPEN entry
at plant time (R38, R139, R185); that the pollutants' open episodes become none with the entries already at the assertion is
the model's reading of R139 (DEDUCED, log 26); asserted again it changes nothing, which is the model's own reading (log 4).
While it is held the trip outputs are asserted and ATTN released (R172, R181). -/
def Obligations.ResetAssertionEffect : Prop :=
  ∀ s : State,
    (s.resetAsserted = true → exec .resetNAssert s = .next s) ∧
    (s.resetAsserted = false → s.settled →
      ∃ t, exec .resetNAssert s = .next t ∧
        { t with averager := s.averager } = { s with
          resetAsserted := true
          requests := []
          ports := ⟨{ s.ports.field with transmitting := none }, { s.ports.supervisor with transmitting := none }⟩
          log := s.log.map fun e =>
            if e.status = .open then { e with status := .closedByReset, finish := some s.plantTime } else e } ∧
        (∀ l p, t.pollutantOf l p = { s.pollutantOf l p with openEpisode := none }) ∧
        (∀ l, (t.averagerOf l).minutes = (s.averagerOf l).minutes ∧ t.tripOutput l = true) ∧ t.attn = false)

/-- LINE_RESET, the release of RESET_N: every block takes its LINE state. Kept are the limit table (its scrub count becomes
0), the minutes used, and the log with its next entry number; a check code that does not match in OPERATE adds INTEGRITY to
both trip sets and sets LIMIT_FAULT; EMISSION follows from the minutes; every other part stands as after POWER_ON (R38, R61,
R76, R77, R94, R118, R138, R139, R157, R172, R173, R178, R184). Where RESET_N is not held, the assertion is taken with it,
which is the model's own reading (log 10). The hold count, not running, is 0 (log 37). -/
def Obligations.LineResetEffect : Prop :=
  ∀ (straps : BitVec 8) (s : State),
    (∀ a, exec .resetNAssert s = .next a → exec (.lineReset straps) s = exec (.lineReset straps) a) ∧
    (∃ a t, exec .resetNAssert s = .next a ∧ a.resetAsserted = true ∧ exec (.lineReset straps) s = .next t) ∧
    (s.resetAsserted = true →
      let unbound : LineBinding :=
        ⟨none, none, none, none, ⟨none, none, none, none, none, none⟩, false, 0, none, 0, List.replicate 6 255, 0⟩
      let broken := decide (s.limits.mode = .operate ∧ crc s.limits.codeBytes ≠ s.limits.checkCode)
      let spent (l : Line) := decide (s.lineLimit l .budget ≤ ((s.averagerOf l).minutes : Int))
      ∃ t, exec (.lineReset straps) s = .next t ∧
        { t with feed := s.feed, averager := s.averager, trip := s.trip, attention := s.attention } =
          { s with
            resetAsserted := false
            ownStation := if 1 ≤ straps.toNat ∧ straps.toNat ≤ 250 then straps else 250#8
            ports := ⟨⟨false, none, ⟨0, 0, 0, 0⟩, [], [], [], 0, 0⟩, ⟨false, none, ⟨0, 0, 0, 0⟩, [], [], [], 0, 0⟩⟩
            matchTable := List.replicate 24 ⟨false, .up, 8, List.replicate 24 0, List.replicate 24 0, .forward, false⟩
            reservation := false
            requests := []
            plantTime := 0
            points := []
            channels := List.replicate 96 none
            plantBinding := ⟨none, none, none⟩
            lineBinding := ⟨unbound, unbound⟩
            unmapped := 0
            malformed := 0
            limits := { s.limits with scrubCount := 0 }
            actuators := List.replicate 48 none
            withheld := 0
            unguarded := 0
            dispatch := ⟨.none, 0, [], 0, 0, 0, 0, some 0, 0, false, false⟩
            runback := ⟨⟨true, true⟩, ⟨false, false⟩, .active, some 0, 0, false, 100, 0, 60, 1⟩
            capture := ⟨List.replicate 8 none, List.replicate 28 true, 0⟩
            owedTick := []
            owedSweep := []
            sweepNext := 0
            tripOffers := 0 } ∧
        (∀ l, t.feedOf l =
            ⟨[], 0, .ready, 0, 0, 0, ⟨false, true, true, true, spent l, true⟩, ⟨false, spent l, false⟩, 60, 10, 5⟩ ∧
          t.tripOf l = ⟨⟨true, broken, false, false⟩, 0⟩ ∧ (t.averagerOf l).minutes = (s.averagerOf l).minutes ∧
          (t.averagerOf l).nextBoundary = 600 ∧ (t.averagerOf l).saturation = ⟨0, 0, 0⟩ ∧
          (∀ p, t.pollutantOf l p = ⟨0, 0, [none, none, none], List.replicate 48 .empty, 0, none, 0⟩) ∧
          t.cause (Cause.trip l) = ⟨true, false, false, some ⟨some l, 0, if broken then 3 else 1⟩⟩ ∧
          t.cause (Cause.feedHoldEmission l) =
            if spent l then ⟨true, false, false, some ⟨some l, 0, 2⟩⟩ else ⟨false, false, false, none⟩) ∧
        t.cause .limitFault =
          (if broken then ⟨true, false, false, some ⟨none, 0, 0⟩⟩ else ⟨false, false, false, none⟩) ∧
        (∀ c, c ∉ [Cause.tripOne, .tripTwo, .limitFault, .feedHoldEmissionOne, .feedHoldEmissionTwo] →
          t.cause c = ⟨false, false, false, none⟩) ∧
        t.attention.causes.length = 15 ∧ t.attention.station = 0 ∧ t.attn = false)

/-- RESTART with its confirm block is a SOFT reset (R39, R62, R77, R94, R119, R140, R158, R172, R173, R184, R192): what each
block keeps and what it takes. The attention unit is cleared, enables and station kept, and the reset then sets the two trip
causes, LIMIT_FAULT where the scrub finds a mismatch, and FEED_HOLD_EMISSION where the minutes are used up; ORIGIN_LOSS may
follow from a lost frame. The sequence counters go on from where they stood: where no frame was originated at a port but the
REPLY, its counter is the same. -/
def Obligations.RestartEffect : Prop :=
  ∀ (r : Request) (rest : List Request) (s : State), Ready .restart r rest s → Confirms r s → s.settled →
    ∃ t, exec .restart s = .next t ∧ Answered r [] .done [] s.ownStation t ∧
      t.plantTime = s.plantTime ∧ t.matchTable = s.matchTable ∧ t.points = s.points ∧
      t.plantBinding = s.plantBinding ∧ t.lineBinding = s.lineBinding ∧ t.unmapped = s.unmapped ∧
      t.malformed = s.malformed ∧ t.withheld = s.withheld ∧ t.unguarded = s.unguarded ∧ SameActuators s t ∧
      t.limits = { s.limits with scrubCount := 0 } ∧ t.nextEntry = s.nextEntry ∧
      t.channels = s.channels.map (Option.map fun c =>
        { c with state := .warming, own := none, quality := .bad, seen := false, miss := 0, good := 0 }) ∧
      (∀ p, (t.port p).linkUp = (s.port p).linkUp ∧ (t.port p).transmitting = none ∧ (t.port p).transit = [] ∧
        (t.port p).credit = 0 ∧ (t.port p).errors = (s.port p).errors) ∧
      (∀ l, (t.tripOf l).causes.restart = true ∧ (t.tripOf l).causes.manual = false ∧
        (t.tripOf l).causes.drumLowLow = false ∧ (t.tripOf l).grace = 0 ∧
        (t.feedOf l).holds.tripped = true ∧ (t.feedOf l).holds.furnaceCold = true ∧
        (t.feedOf l).holds.noSink = true ∧ (t.feedOf l).holds.manual = false ∧ (t.feedOf l).queue = [] ∧
        (t.feedOf l).engine = .ready ∧ (t.feedOf l).bed = (s.feedOf l).bed ∧
        (t.averagerOf l).minutes = (s.averagerOf l).minutes ∧
        (t.averagerOf l).nextBoundary = (s.averagerOf l).nextBoundary) ∧
      t.dispatch.allowed = 0 ∧ t.dispatch.orders = [] ∧ t.dispatch.gateway = s.dispatch.gateway ∧
      t.dispatch.follow = s.dispatch.follow ∧ t.dispatch.sink = .none ∧
      t.runback.envelope = .active ∧ t.runback.cap = some (s.runback.floor * 60) ∧
      t.capture = ⟨List.replicate 8 none, List.replicate 28 true, s.capture.missed⟩ ∧
      t.ownStation = s.ownStation ∧
      t.log = (s.log.map fun e =>
        if e.status = .open then { e with status := .closedByReset, finish := some s.plantTime } else e) ∧
      (∀ l, (t.averagerOf l).saturation = ⟨0, 0, 0⟩ ∧
        ∀ p, t.pollutantOf l p = ⟨0, 0, [none, none, none], (s.pollutantOf l p).ring, 0, none, 0⟩) ∧
      (∀ l, (t.tripOf l).causes.integrity =
          decide (s.limits.mode = .operate ∧ crc s.limits.codeBytes ≠ s.limits.checkCode) ∧
        (t.feedOf l).holds.emission = decide (s.lineLimit l .budget ≤ ((s.averagerOf l).minutes : Int))) ∧
      ((t.port .field).urgent = [] → (t.port .field).routine = [] → (t.port .field).seq = (s.port .field).seq) ∧
      ((t.port .supervisor).urgent = [] → (t.port .supervisor).routine.length = 1 →
        (t.port .supervisor).seq = (s.port .supervisor).seq) ∧
      t.attention.station = s.attention.station ∧ (∀ c, (t.cause c).enable = (s.cause c).enable) ∧
      (∀ c, c ∉ [Cause.tripOne, .tripTwo, .limitFault, .feedHoldEmissionOne, .feedHoldEmissionTwo, .originLoss] →
        t.cause c = ⟨false, (s.cause c).enable, false, none⟩) ∧
      (s.attention.causes.length = 15 →
        (∀ l, (t.cause (Cause.trip l)).status = true ∧
          (t.cause (Cause.trip l)).held = some ⟨some l, s.plantTime, (t.tripOf l).causes.byte⟩ ∧
          (t.cause (Cause.feedHoldEmission l)).status = (t.feedOf l).holds.emission) ∧
        (t.cause .limitFault).status =
          decide (s.limits.mode = .operate ∧ crc s.limits.codeBytes ≠ s.limits.checkCode))

/-- Which commands can write what, resets apart: the match table, the point map, the bindings, the limit table, the
settings, plant time and the own station change by the commands that own them and by no other. -/
def Obligations.OnlyOwnersWrite : Prop :=
  ∀ (c : Instr) (s t : State), isReset c = false → exec c s = .next t →
    (c ≠ .writeEntryMatch → t.matchTable = s.matchTable) ∧
    (c ≠ .pointInsert → c ≠ .deleteEntryPoints → t.points = s.points) ∧
    (c ≠ .writeEntryBindings → t.plantBinding = s.plantBinding ∧ t.lineBinding = s.lineBinding) ∧
    (c ∉ [Instr.setLimit, .setOverride, .clearOverride] → t.limits.entries = s.limits.entries) ∧
    (c ≠ .freeze → t.limits.mode = s.limits.mode) ∧
    (c ≠ .setTime → (∀ order, c ≠ .secondTick order) → t.plantTime = s.plantTime) ∧
    (c ≠ .writeEntryDispatch → t.dispatch.gateway = s.dispatch.gateway ∧ t.dispatch.follow = s.dispatch.follow) ∧
    (c ≠ .writeEntryRunback → t.runback.depth = s.runback.depth ∧ t.runback.floor = s.runback.floor ∧
      t.runback.hold = s.runback.hold ∧ t.runback.releaseSelect = s.runback.releaseSelect) ∧
    (c ≠ .writeEntryFeedSettings → ∀ l, (t.feedOf l).ttl = (s.feedOf l).ttl ∧
      (t.feedOf l).timeout = (s.feedOf l).timeout ∧ (t.feedOf l).settle = (s.feedOf l).settle) ∧
    (c ≠ .writeEntryNotices → t.attention.station = s.attention.station) ∧
    (∀ p, c ≠ .linkUp p → c ≠ .linkDown p → (t.port p).linkUp = (s.port p).linkUp) ∧
    t.ownStation = s.ownStation ∧ t.resetAsserted = s.resetAsserted

/-! ### Links, transmissions, arrivals -/

/-- Links and transmissions (R33 to R35): a link that goes DOWN abandons the frame in transmission; where the transmitter
is free and the link UP, the frame of R33's table is sent; a completion frees the transmitter, which then chooses again;
where nothing waits nothing starts. Every other part of the state stays. -/
def Obligations.LinksAndTransmissions : Prop :=
  ∀ (p : PortId) (s : State), s.resetAsserted = false →
    exec (.linkDown p) s =
        .next { s with ports := s.ports.set p { s.port p with linkUp := false, transmitting := none } } ∧
    ((s.port p).linkUp = false → (s.port p).transmitting = none →
      (∀ f q, (s.port p).Sends f q →
        exec (.linkUp p) s = .next { s with ports := s.ports.set p { q with linkUp := true, transmitting := some f } }) ∧
      ((s.port p).Quiet →
        exec (.linkUp p) s = .next { s with ports := s.ports.set p { s.port p with linkUp := true } })) ∧
    ((s.port p).linkUp = true → (s.port p).transmitting = none →
      (∀ f q, (s.port p).Sends f q →
        exec (.transmissionStart p) s = .next { s with ports := s.ports.set p { q with transmitting := some f } }) ∧
      ((s.port p).Quiet → exec (.transmissionStart p) s = .next s)) ∧
    (∀ g, (s.port p).linkUp = true → (s.port p).transmitting = some g →
      (∀ f q, (s.port p).Sends f q →
        exec (.transmissionCompletion p) s =
          .next { s with ports := s.ports.set p { q with transmitting := some f } }) ∧
      ((s.port p).Quiet →
        exec (.transmissionCompletion p) s =
          .next { s with ports := s.ports.set p { s.port p with transmitting := none } }))

/-- What an arrival is taken for. A frame that fails the length check adds 1 to the length errors of its port, one that
fails the check value test to the check errors, saturating; PORT_ERROR is set with the port's code, its NOTICE is sent where
one is due, and nothing else changes (R2, R3, R5, R10, R180).
A SAMPLE frame that a SAMPLES slot decides has its reading taken at its point's channel by the tables of R49 to R51, or
counted as unmapped, or is counted as malformed, and is forwarded unchanged (R7, R23, R48).
A COMMAND frame that a GUARD slot decides is withheld, counted and offered as evidence where it is malformed, for a ram, or
for a feed group in a form that no line takes; a STROKE of 5 to 100 to a line's feed group joins that line's stroke queue,
followed by a release check, or is refused by a full one; a STOP to it clears the queue and aborts a stroke in flight (R24,
R85, R88, R95, R97). A slot that captures offers the frame as well (R25). The NOTICEs of the causes an arrival sets are
built at its end (R180; what counts as one event: log 18), and of two offers either may come first (R175, log 5). That the
timeout count of an aborted stroke is left standing is the model's choice (log 28). -/
def Obligations.ArrivalEffects : Prop :=
  (∀ (p : PortId) (bytes : List Byte) (s : State), s.resetAsserted = false → (s.port p).linkUp = true →
    s.attention.causes.length = 15 →
    let counted (e : PortErrors) : State := { s with ports := s.ports.set p { s.port p with errors := e } }
    let taken (e : PortErrors) : Prop :=
      ∃ t, exec (.frameArrival p bytes) s = .next t ∧ OnlyNotices [.portError] (counted e) t ∧
        (t.cause .portError).status = true ∧ (t.cause .portError).held = some ⟨none, s.plantTime, p.code⟩ ∧
        ((s.cause .portError).status = false → (s.cause .portError).enable = true →
          (s.cause .portError).noticed = false → s.attention.station ≠ 0 → s.reservation = false →
          (s.port .supervisor).routine.length < 16 →
          (t.cause .portError).noticed = true ∧
          (t.port .supervisor).routine = (s.port .supervisor).routine ++
            [⟨s.nextMark, ⟨u8 s.attention.station, s.ownStation, 0x50#8, u8 (s.port .supervisor).seq, 0x02#8,
              [14, 2] ++ be32 s.plantTime ++ [0] ++ be16 p.code⟩⟩])
    (lengthCheck bytes = false →
      taken { (s.port p).errors with
        length := if (s.port p).errors.length < 65535 then (s.port p).errors.length + 1
                  else (s.port p).errors.length }) ∧
    (lengthCheck bytes = true → checkTest bytes = false →
      taken { (s.port p).errors with
        check := if (s.port p).errors.check < 65535 then (s.port p).errors.check + 1
                 else (s.port p).errors.check })) ∧
  (∀ (p : PortId) (f : Frame) (before after : List MatchSlot) (m : MatchSlot) (s : State),
    s.resetAsserted = false → (s.port p).linkUp = true → f.dest ≠ s.ownStation → f.dest ≠ 0#8 →
    f.payload.length ≤ 55 → f.kind = 0x10#8 → s.matchTable = before ++ m :: after →
    (∀ x ∈ before, x.matches p f.bytes = false) → m.matches p f.bytes = true → m.action = .samples →
    ∃ t, exec (.frameArrival p f.bytes) s = .next t ∧ t.points = s.points ∧
      ((s.port (PortId.opposite p)).transit.length < 32 →
        ∃ mark sent, (t.port (PortId.opposite p)).transit = sent ++ [⟨mark, f⟩]) ∧
      (f.payload.length % 5 ≠ 0 ∨ f.payload = [] →
        t.channels = s.channels ∧ t.unmapped = s.unmapped ∧
        t.malformed = if s.malformed < 65535 then s.malformed + 1 else s.malformed) ∧
      (∀ (point : Nat) (v : Int) (q : Byte), point < 65536 → -32768 ≤ v → v ≤ 32767 →
        f.payload = be16 point ++ sbe16 v ++ [q] →
        t.malformed = s.malformed ∧
        (s.channelOfPoint point = none → t.channels = s.channels ∧
          t.unmapped = if s.unmapped < 65535 then s.unmapped + 1 else s.unmapped) ∧
        (∀ x c, s.channelOfPoint point = some x → s.channel x = some c →
          let starting := c.state = .stale ∨ c.state = .calibrating
          let leaving := c.state = .warming ∨ c.state = .live ∨ c.state = .stale
          t.unmapped = s.unmapped ∧
          t.channels = s.channels.set x (some
            (if q = 0#8 then
              { c with
                quality := .good, lastTime := s.plantTime, own := some v, seen := true
                good := if c.state = .warming then c.good + 1 else if starting then 1 else c.good
                state :=
                  if c.state = .warming then (if c.warmCount ≤ c.good + 1 then .live else .warming)
                  else if starting then (if c.warmCount = 1 then .live else .warming)
                  else c.state }
            else if q = 2#8 then
              { c with
                quality := .calibrating, lastTime := s.plantTime, seen := true
                good := if leaving then 0 else c.good
                state := if leaving then .calibrating else c.state }
            else
              { c with
                quality := .bad, lastTime := s.plantTime
                good := if c.state = .warming then 0 else c.good }))))) ∧
  (∀ (f : Frame) (before after : List MatchSlot) (m : MatchSlot) (s : State),
    s.resetAsserted = false → (s.port .supervisor).linkUp = true → f.dest ≠ s.ownStation → f.dest ≠ 0#8 →
    f.payload.length ≤ 55 → f.kind = 0x20#8 → s.tripOffers = 0 → s.matchTable = before ++ m :: after →
    before.length < 24 → (∀ x ∈ before, x.matches .supervisor f.bytes = false) →
    m.matches .supervisor f.bytes = true → m.action = .guard →
    let offered (source : CaptureSource) (d : Disposition) : State → State :=
      captureOffer ⟨source, .supervisor, s.plantTime, d, f.bytes⟩
    let slot : CaptureSource := .slot (Fin.ofNat 24 before.length)
    let taken (act : State → State) : State → State := fun u =>
      if m.capture then offered slot .absorbed (act u) else act u
    (f.command? = none ∨
      (∃ c e a, f.command? = some c ∧ s.entryOf c.number = some e ∧ s.actuator e = some a ∧
        (a.role = .feedRam ∨
          (a.role = .feedGroup ∧
            ((∀ l, (s.binding l).feedGroupIs c.number = false) ∨ c.verb = .set ∨
              (c.verb = .stroke ∧ (c.value < 5 ∨ 100 < c.value)))))) →
      let counted : State := { s with withheld := if s.withheld < 65535 then s.withheld + 1 else s.withheld }
      (m.capture = false →
        exec (.frameArrival .supervisor f.bytes) s = .next (asEvent (offered .withheld .withheld) counted)) ∧
      (m.capture = true →
        exec (.frameArrival .supervisor f.bytes) s =
          .next (asEvent (inAnyOrder [offered slot .withheld, offered .withheld .withheld]) counted))) ∧
    (∀ c e a l, f.command? = some c → s.entryOf c.number = some e → s.actuator e = some a → a.role = .feedGroup →
      (s.binding l).feedGroupIs c.number = true → (∀ k, k ≠ l → (s.binding k).feedGroupIs c.number = false) →
      (c.verb = .stroke → 5 ≤ c.value → c.value ≤ 100 →
        ((s.feedOf l).queue.length < 8 →
          exec (.frameArrival .supervisor f.bytes) s = .next (asEvent (taken (releaseCheck l)) { s with
            feed := s.feed.set l { s.feedOf l with
              queue := (s.feedOf l).queue ++
                [⟨c.value.toNat, f.src, f.seq, min 4294967295 (s.plantTime + (s.feedOf l).ttl)⟩] } })) ∧
        (8 ≤ (s.feedOf l).queue.length →
          exec (.frameArrival .supervisor f.bytes) s =
            .next (asEvent (taken (setCause .strokeRefused (some l) f.seq.toNat)) s))) ∧
      (c.verb = .stop →
        let cleared : Feed := { s.feedOf l with queue := [] }
        ((∀ ram target, (s.feedOf l).engine ≠ .inStroke ram target) →
          exec (.frameArrival .supervisor f.bytes) s =
            .next (asEvent (taken id) { s with feed := s.feed.set l cleared })) ∧
        (∀ ram target r, (s.feedOf l).engine = .inStroke ram target → s.actuator ram = some r →
          exec (.frameArrival .supervisor f.bytes) s =
            .next (asEvent (taken (originateCommand .urgent ⟨r.number, .stop, 0⟩)) { s with
              feed := s.feed.set l { cleared with engine := .settling, settleCount := (s.feedOf l).settle } })) ∧
        (∀ ram target, (s.feedOf l).engine = .inStroke ram target → s.actuator ram = none →
          exec (.frameArrival .supervisor f.bytes) s = .next (asEvent (taken id) { s with
            feed := s.feed.set l { cleared with engine := .settling, settleCount := (s.feedOf l).settle } })))))

/-- A well-formed MANAGE frame to the own station on SUPERVISOR enters the request queue whole, with the plant time, while
fewer than four wait; with four waiting it is a stray (R18, R19, R185). -/
def Obligations.ArrivalQueuesRequest : Prop :=
  ∀ (f : Frame) (s : State), s.resetAsserted = false → (s.port .supervisor).linkUp = true →
    f.dest = s.ownStation → f.dest ≠ 0#8 → f.kind = 0x40#8 → f.payload.length ≤ 55 →
    (s.requests.length < 4 →
      exec (.frameArrival .supervisor f.bytes) s = .next { s with requests := s.requests ++ [⟨f, s.plantTime⟩] }) ∧
    (4 ≤ s.requests.length →
      ∃ t, exec (.frameArrival .supervisor f.bytes) s = .next t ∧ SameButNotices s t ∧
        (t.port .supervisor).errors.strays =
          if (s.port .supervisor).errors.strays < 65535 then (s.port .supervisor).errors.strays + 1
          else (s.port .supervisor).errors.strays)

/-- A frame for another station that no enabled slot matches, and that is no COMMAND, enters the transit queue of its
direction unchanged; with 32 frames waiting it is lost as an overrun of the port it arrived on (R21, R26). -/
def Obligations.ArrivalForwardsUnmatched : Prop :=
  ∀ (p : PortId) (f : Frame) (s : State), s.resetAsserted = false → (s.port p).linkUp = true →
    f.dest ≠ s.ownStation → f.dest ≠ 0#8 → f.kind ≠ 0x20#8 → f.payload.length ≤ 55 → s.tripOffers = 0 →
    (∀ m ∈ s.matchTable, m.matches p f.bytes = false) →
    ((s.port (PortId.opposite p)).transit.length < 32 →
      exec (.frameArrival p f.bytes) s = .next { s with
        nextMark := s.nextMark + 1
        ports := s.ports.set (PortId.opposite p) { s.port (PortId.opposite p) with
          transit := (s.port (PortId.opposite p)).transit ++ [⟨s.nextMark, f⟩] } }) ∧
    (32 ≤ (s.port (PortId.opposite p)).transit.length →
      ∃ t, exec (.frameArrival p f.bytes) s = .next t ∧ SameButNotices s t ∧
        (t.port (PortId.opposite p)).transit = (s.port (PortId.opposite p)).transit ∧
        (t.port p).errors.overruns =
          if (s.port p).errors.overruns < 65535 then (s.port p).errors.overruns + 1 else (s.port p).errors.overruns)

/-- A SCHEDULE from the gateway for a later time, of a number not queued, in a queue with room, is inserted behind every
order due no later and ahead of every order due later, and an ORDER_ACK with ACCEPTED and the new count is the last frame
of the SUPERVISOR ROUTINE queue (R18, R20, R143, R144). -/
def Obligations.ArrivalSchedulesOrder : Prop :=
  ∀ (src seq flags : Byte) (number effective target rate : Nat) (s : State),
    let f : Frame := ⟨s.ownStation, src, 0x30#8, seq, flags, be16 number ++ [1] ++ be32 effective ++ be16 target ++ be16 rate⟩
    s.resetAsserted = false → (s.port .supervisor).linkUp = true → s.ownStation ≠ 0#8 → s.reservation = false →
    src.toNat = s.dispatch.gateway → src ≠ 0#8 → number < 65536 → target ≤ 600 →
    (target : Int) ≤ s.limit (.plant .maxLoad) → rate ≤ 600 →
    s.plantTime < effective → effective ≤ s.plantTime + 604800 → effective < 4294967296 → s.ordersSound →
    (∀ o ∈ s.dispatch.orders, s.plantTime < o.effective) → (∀ o ∈ s.dispatch.orders, o.number ≠ number) →
    s.dispatch.orders.length < 16 → (s.port .supervisor).routine.length < 16 →
    ∃ t before after, exec (.frameArrival .supervisor f.bytes) s = .next t ∧
      s.dispatch.orders = before ++ after ∧
      t.dispatch.orders = before ++ [⟨number, effective, target, rate⟩] ++ after ∧
      (∀ o ∈ before, o.effective ≤ effective) ∧ (∀ o ∈ after, effective < o.effective) ∧
      t.dispatch.target = s.dispatch.target ∧ t.dispatch.rate = s.dispatch.rate ∧
      ∃ mark sent ackSeq, (t.port .supervisor).routine = sent ++
        [⟨mark, ⟨src, s.ownStation, 0x31#8, ackSeq, 0x02#8, be16 number ++ [1, u8 (s.dispatch.orders.length + 1)]⟩⟩]

/-- Whichever way a SET for the TURBINE_LOAD actuator reaches the downward transit queue, guarded or not, it waits there
with a value from 0 to the allowed load (R27, R83, R87). -/
def Obligations.TurbineSetsEnterBounded : Prop :=
  ∀ (dest src seq flags : Byte) (number entry : Nat) (v : Int) (a : Actuator) (s t : State),
    let f : Frame := ⟨dest, src, 0x20#8, seq, flags, be16 number ++ [1] ++ sbe16 v⟩
    s.resetAsserted = false → (s.port .supervisor).linkUp = true → dest ≠ s.ownStation → dest ≠ 0#8 →
    number < 65536 → -32768 ≤ v → v ≤ 32767 →
    s.entryOf number = some entry → s.actuator entry = some a → a.role = .turbineLoad →
    exec (.frameArrival .supervisor f.bytes) s = .next t →
    ∀ w ∈ (t.port .field).transit, w ∉ (s.port .field).transit →
      ∃ x, w.frame.command? = some ⟨number, .set, x⟩ ∧ 0 ≤ x ∧ x ≤ s.dispatch.allowed

/-- The treatment of R84: the value lies in [min, max]; where the step limit acts it lies within max step of the last
forwarded value; a value that meets both is left as it is. -/
def Obligations.RangedSetBounds : Prop :=
  ∀ (a : Actuator) (v : Int), a.min ≤ a.max →
    a.min ≤ a.rangeAndStep v ∧ a.rangeAndStep v ≤ a.max ∧
    (∀ w, a.last = some w → a.maxStep ≠ 0 → a.min ≤ w → w ≤ a.max →
      w - a.maxStep ≤ a.rangeAndStep v ∧ a.rangeAndStep v ≤ w + a.maxStep) ∧
    (a.min ≤ v → v ≤ a.max →
      (∀ w, a.last = some w → a.maxStep ≠ 0 → w - a.maxStep ≤ v ∧ v ≤ w + a.maxStep) → a.rangeAndStep v = v)

/-- After a rewrite request no frame waiting for the field qualifies for it; every frame keeps its place, and the frames
for the control segment are not examined (R36). -/
def Obligations.RewriteLeavesNoneBeyond : Prop :=
  ∀ (number : Nat) (b : Bound) (s : State), -32768 ≤ b.value → b.value ≤ 32767 →
    let t := (s.rewrite number b).1
    (∀ w ∈ (t.port .field).transit ++ (t.port .field).urgent ++ (t.port .field).routine,
      w.qualifies number b = false) ∧
    (t.port .field).transit.map (·.mark) = (s.port .field).transit.map (·.mark) ∧
    (t.port .field).urgent.map (·.mark) = (s.port .field).urgent.map (·.mark) ∧
    (t.port .field).routine.map (·.mark) = (s.port .field).routine.map (·.mark) ∧
    t.port .supervisor = s.port .supervisor ∧ SameActuators s t

/-! ### Clock and sweep -/

/-- At a second tick plant time adds 1, stopping at 4294967295, whatever units take it in the step; where none does, that
and the shares owed are all that changes (R40, R41; the shares are the model's own, log 6). -/
def Obligations.SecondTickAdvancesTime : Prop :=
  ∀ (order : List TickUnit) (s : State), s.resetAsserted = false → s.owedTick = [] →
    (∃ t, exec (.secondTick order) s = .next t ∧
      t.plantTime = if s.plantTime < 4294967295 then s.plantTime + 1 else s.plantTime) ∧
    exec (.secondTick []) s = .next { s with
      plantTime := if s.plantTime < 4294967295 then s.plantTime + 1 else s.plantTime
      owedTick := TickUnit.all }

/-- The share of a tick at a feed admission unit (R96, R98, R102, R104, R105): expired strokes leave the queue; the settle
count that reaches 0 makes the engine READY; each is followed by the release check, and the tick ends as an event does
(log 18). A stroke in flight whose timeout count
reaches 0 goes to SETTLING, and where its ram has a position channel the ram is FAULTED and STROKE_TIMEOUT is set. -/
def Obligations.FeedTickEvents : Prop :=
  ∀ (l : Line) (s : State), s.resetAsserted = false → .feed l ∈ s.owedTick →
    let live := (s.feedOf l).queue.filter fun e => s.plantTime ≤ e.deadline
    let bed := (s.feedOf l).bed - (s.lineLimit l .burnRate).toNat
    ((∃ e ∈ (s.feedOf l).queue, e.deadline < s.plantTime) → (s.feedOf l).engine = .ready →
      exec (.strokeExpiry l) s = .next (asEvent (releaseCheck l) { s with
        owedTick := s.owedTick.erase (.feed l)
        feed := s.feed.set l { s.feedOf l with queue := live, bed := bed } })) ∧
    ((s.feedOf l).engine = .settling → (s.feedOf l).settleCount = 1 →
      exec (.settleEnd l) s = .next (asEvent (releaseCheck l) { s with
        owedTick := s.owedTick.erase (.feed l)
        feed := s.feed.set l { s.feedOf l with queue := live, bed := bed, engine := .ready, settleCount := 0 } })) ∧
    (∀ ram target a, (s.feedOf l).engine = .inStroke ram target → (s.feedOf l).timeoutCount = 1 →
      s.actuator ram = some a → s.attention.causes.length = 15 →
      ∃ t, exec (.strokeTimeout l) s = .next t ∧
        (t.feedOf l).engine = .settling ∧ (t.feedOf l).settleCount = (s.feedOf l).settle ∧
        (t.feedOf l).queue = live ∧ (t.feedOf l).bed = bed ∧ (t.feedOf l).rotation = (s.feedOf l).rotation ∧
        (a.position = none → (t.actuator ram).map (·.ram) = some a.ram) ∧
        (a.position ≠ none → (t.actuator ram).map (·.ram) = some .faulted ∧
          (t.cause .strokeTimeout).status = true ∧
          (t.cause .strokeTimeout).held = some ⟨some l, s.plantTime, a.number⟩))

/-- A release check (R100, R101): with engine READY, an empty hold set, the head's charge under the effective ceiling and
a ram in service, the head stroke is released to the first such ram from the rotation position on: the unit's record
changes as R101 gives, and a STROKE to that ram's actuator number with the stroke's length is originated, ROUTINE, as the
originating of commands is stated beside it (R28 to R31, R90); nothing else changes. The ram chosen always has a record, IN_SERVICE: an
entry that is empty is passed over, and where every entry of the ram list is empty or out of service, or any other
condition fails, nothing happens. -/
def Obligations.ReleaseCheckEffect : Prop :=
  ∀ (l : Line) (s : State),
    (∀ head rest k, (s.feedOf l).engine = .ready → (s.feedOf l).holds.isEmpty = true →
      (s.feedOf l).queue = head :: rest → (s.feedOf l).bed + s.strokeCharge l head.length ≤ s.ceiling l →
      s.seekRam l (s.feedOf l).rotation = some k →
      ∃ ram a, (s.rams l)[k]? = some ram ∧ s.actuator ram = some a ∧ a.ram = .inService ∧
        releaseCheck l s = originateCommand .routine ⟨a.number, .stroke, head.length⟩ { s with
          feed := s.feed.set l { s.feedOf l with
            queue := rest
            bed := (s.feedOf l).bed + s.strokeCharge l head.length
            rotation := (k + 1) % (s.rams l).length
            engine := .inStroke ram (head.length * 10)
            timeoutCount := (s.feedOf l).timeout } } ∧
        (releaseCheck l s).feedOf l = { s.feedOf l with
          queue := rest
          bed := (s.feedOf l).bed + s.strokeCharge l head.length
          rotation := (k + 1) % (s.rams l).length
          engine := .inStroke ram (head.length * 10)
          timeoutCount := (s.feedOf l).timeout }) ∧
    (∀ k j ram, s.seekRam l (s.feedOf l).rotation = some k → j < (s.rams l).length →
      (s.rams l)[((s.feedOf l).rotation + j) % (s.rams l).length]? = some ram →
      ((s.feedOf l).rotation + j) % (s.rams l).length = k ∨ s.inService ram = false ∨
        ∃ i, i < j ∧ ((s.feedOf l).rotation + i) % (s.rams l).length = k) ∧
    (∀ ram, s.actuator ram = none → s.inService ram = false) ∧
    ((s.feedOf l).engine ≠ .ready ∨ (s.feedOf l).holds.isEmpty = false ∨ (s.feedOf l).queue = [] ∨
      s.someRam l = false ∨
      (∃ head rest, (s.feedOf l).queue = head :: rest ∧
        s.ceiling l < (s.feedOf l).bed + s.strokeCharge l head.length) →
      releaseCheck l s = s)

/-- An activation at the dispatch unit's share of a tick removes every due order from the head of the queue; the last one
sets target and ramp rate; the ramped setpoint then moves toward the target and does not pass it (R147, R148). -/
def Obligations.OrderActivationEffect : Prop :=
  ∀ (o : Order) (due later : List Order) (s : State), s.resetAsserted = false → .dispatch ∈ s.owedTick →
    s.dispatch.orders = due ++ [o] ++ later → (∀ q ∈ due ++ [o], q.effective ≤ s.plantTime) →
    (∀ q ∈ later, s.plantTime < q.effective) →
    ∃ t, exec .orderActivation s = .next t ∧ t.dispatch.orders = later ∧ t.dispatch.target = o.target ∧
      t.dispatch.rate = o.rate ∧ t.owedTick = s.owedTick.erase .dispatch ∧ t.plantTime = s.plantTime ∧
      t.dispatch.ramped =
        if o.rate = 0 then o.target * 60
        else if s.dispatch.ramped < o.target * 60 then min (o.target * 60) (s.dispatch.ramped + o.rate)
        else max (o.target * 60) (s.dispatch.ramped - o.rate)

/-- The hold count that reaches 0 puts the envelope into RELEASING with the cap as it stands; nothing else changes
(R163). -/
def Obligations.RunbackHoldExpires : Prop :=
  ∀ s : State, s.resetAsserted = false → .runback ∈ s.owedTick → s.runback.envelope = .active →
    s.runback.holdRunning = true → s.runback.holdCount = 1 →
    exec .runbackHoldExpiry s = .next { s with
      owedTick := s.owedTick.erase .runback
      runback := { s.runback with holdCount := 0, holdRunning := false, envelope := .releasing } }

/-- The scrub of the tenth tick: with a check code that agrees only the scrub count changes; with one that differs both
trip cause sets hold INTEGRITY, LIMIT_FAULT is set, and a set that was empty puts TRIPPED into its line's hold set (R73,
R74). A storage fault alters the check code in OPERATE alone. -/
def Obligations.ScrubAndStorageFault : Prop :=
  (∀ s : State, s.resetAsserted = false → .limits ∈ s.owedTick → s.limits.mode = .operate → s.limits.scrubCount = 9 →
    s.attention.causes.length = 15 →
    (crc s.limits.codeBytes = s.limits.checkCode →
      exec .integrityScrub s = .next { s with
        owedTick := s.owedTick.erase .limits
        limits := { s.limits with scrubCount := 0 } }) ∧
    (crc s.limits.codeBytes ≠ s.limits.checkCode →
      ∃ t, exec .integrityScrub s = .next t ∧ t.limits = { s.limits with scrubCount := 0 } ∧
        (t.cause .limitFault).status = true ∧ (t.cause .limitFault).held = some ⟨none, s.plantTime, 0⟩ ∧
        ∀ l, (t.tripOf l).causes = { (s.tripOf l).causes with integrity := true } ∧
          ((s.tripOf l).causes.isEmpty = true → (t.feedOf l).holds.tripped = true))) ∧
  (∀ (code : BitVec 16) (s : State),
    (s.limits.mode = .operate →
      exec (.storageFault code) s = .next { s with limits := { s.limits with checkCode := code } }) ∧
    (s.limits.mode = .commission → exec (.storageFault code) s = .next s))

/-- A boundary close that ends no half-hour: the boundary moves on by 600, every pollutant's block mean is stored at its
position, INVALID where the valid count falls short, and its accumulator becomes 0 (R123, R124); the other line's
averager, the rings and the log stay.
One that ends a half-hour also forms each pollutant's half-hour value from its block means, stores it in the ring, counts,
opens, extends or closes the pollutant's episode in the log, adds 30 to the minutes used once where any pollutant exceeds,
and posts the reasons EPISODE_CAP and BUDGET (R125 to R127, R129, R130). One that ends a day records a daily value above its
limit, and the rings become EMPTY (R128). That an entry closed at this close is still there is said for a log with room for
the close's openings, since a full log gives up its oldest closed entry. -/
def Obligations.BoundaryCloseEffect : Prop :=
  (∀ (l : Line) (s : State), s.resetAsserted = false → .averager l ∈ s.owedTick →
    (s.averagerOf l).nextBoundary ≤ s.plantTime → (s.averagerOf l).nextBoundary % 1800 ≠ 0 →
    ∃ t, exec (.boundaryClose l) s = .next t ∧
      (t.averagerOf l).nextBoundary = (s.averagerOf l).nextBoundary + 600 ∧
      (t.averagerOf l).minutes = (s.averagerOf l).minutes ∧
      (∀ m, m ≠ l → t.averagerOf m = s.averagerOf m) ∧ t.log = s.log ∧ t.owedTick = s.owedTick.erase (.averager l) ∧
      ∀ p, t.pollutantOf l p = { s.pollutantOf l p with
        sum := 0
        valid := 0
        means := (s.pollutantOf l p).means.set (((s.averagerOf l).nextBoundary / 600 - 1) % 3)
          (if s.limit (.plant .blockMinSamples) ≤ ((s.pollutantOf l p).valid : Int) ∧ 1 ≤ (s.pollutantOf l p).valid
           then some ((s.pollutantOf l p).sum / (s.pollutantOf l p).valid) else none) }) ∧
  (∀ (l : Line) (s : State), s.resetAsserted = false → .averager l ∈ s.owedTick →
    (s.averagerOf l).nextBoundary ≤ s.plantTime → (s.averagerOf l).nextBoundary % 1800 = 0 →
    let b := (s.averagerOf l).nextBoundary
    let old (p : Pollutant) : PollutantState := s.pollutantOf l p
    let blocks (p : Pollutant) : List Nat :=
      ((old p).means.set ((b / 600 - 1) % 3)
        (if s.limit (.plant .blockMinSamples) ≤ ((old p).valid : Int) ∧ 1 ≤ (old p).valid
         then some ((old p).sum / (old p).valid) else none)).filterMap id
    let value (p : Pollutant) : Option Nat :=
      if 2 ≤ (blocks p).length then some ((blocks p).sum / (blocks p).length) else none
    let high (p : Pollutant) : Bool := (value p).any fun v => decide (s.lineLimit l (.hhLimit p) < (v : Int))
    let ring (p : Pollutant) : List RingSlot :=
      (old p).ring.set ((b / 1800 - 1) % 48) (((value p).map RingSlot.value).getD .invalid)
    let day (p : Pollutant) : List Nat :=
      (ring p).filterMap fun x =>
        match x with
        | .value v => some v
        | _ => none
    let exceeding := Pollutant.all.any high
    let counted (p : Pollutant) : Nat :=
      if (value p).isNone then (old p).exceed
      else if high p then (if (old p).exceed < 255 then (old p).exceed + 1 else (old p).exceed) else 0
    let minutes := if exceeding then min 65535 ((s.averagerOf l).minutes + 30) else (s.averagerOf l).minutes
    ∃ t, exec (.boundaryClose l) s = .next t ∧
      (t.averagerOf l).nextBoundary = b + 600 ∧ (t.averagerOf l).minutes = minutes ∧
      (∀ m, m ≠ l → t.averagerOf m = s.averagerOf m) ∧ t.owedTick = s.owedTick.erase (.averager l) ∧
      (∀ p, t.pollutantOf l p = { old p with
          sum := 0
          valid := 0
          means := [none, none, none]
          ring := if b % 86400 = 0 then List.replicate 48 .empty else ring p
          exceed := counted p
          openEpisode := (t.pollutantOf l p).openEpisode } ∧
        (value p = none → (t.pollutantOf l p).openEpisode = (old p).openEpisode) ∧
        (value p ≠ none → high p = false → (t.pollutantOf l p).openEpisode = none ∧
          ((old p).openEpisode ≠ none → (∀ e ∈ t.log, e.isOpenEpisode l p = false) ∧
            (s.log.length ≤ 20 → ∀ e ∈ s.log, e.isOpenEpisode l p = true →
              { e with status := .closed, finish := some b } ∈ t.log))) ∧
        (∀ v, value p = some v → high p = true →
          ((old p).openEpisode = none → ∃ n, (t.pollutantOf l p).openEpisode = some n ∧
            ⟨n, l, p, .halfHour, .open, b - 1800, none, v, 1⟩ ∈ t.log ∧
            (s.attention.causes.length = 15 → (t.cause .episodeOpened).status = true)) ∧
          (∀ n, (old p).openEpisode = some n → (t.pollutantOf l p).openEpisode = some n ∧
            ∀ e ∈ s.log, e.isOpenEpisode l p = true →
              { e with
                peak := max e.peak v
                halfHours := if e.halfHours < 255 then e.halfHours + 1 else e.halfHours } ∈ t.log)) ∧
        (b % 86400 = 0 → 1 ≤ (day p).length → s.limit (.plant .dayMinValid) ≤ ((day p).length : Int) →
          s.lineLimit l (.dayLimit p) < (((day p).sum / (day p).length : Nat) : Int) → s.log.length ≤ 20 →
          ∃ n, ⟨n, l, p, .daily, .closed, b - 86400, some b, (day p).sum / (day p).length, (day p).length⟩ ∈ t.log)) ∧
      ((∀ p, high p = false ∧ (old p).openEpisode = none) → b % 86400 ≠ 0 →
        t.log = s.log ∧ t.nextEntry = s.nextEntry) ∧
      (t.feedOf l).reasons.episodeCap =
        ((s.feedOf l).reasons.episodeCap ||
          Pollutant.all.any fun p => high p && decide (s.lineLimit l .episodeCap ≤ (counted p : Int))) ∧
      (t.feedOf l).reasons.budget =
        ((s.feedOf l).reasons.budget || (exceeding && decide (s.lineLimit l .budget ≤ (minutes : Int)))) ∧
      ((s.feedOf l).reasons = ⟨false, false, false⟩ → (t.feedOf l).reasons ≠ ⟨false, false, false⟩ →
        (t.feedOf l).holds.emission = true))

/-- A sweep that loses no channel: every checked channel with its mark set has the mark cleared and its miss count 0,
every other checked channel adds 1 to the count, OUT_OF_SERVICE channels keep both; nothing else changes (R52; the shares
of a sweep are the model's own, log 6). -/
def Obligations.SweepMarksChannels : Prop :=
  ∀ s : State, s.resetAsserted = false → s.owedSweep = [] →
    exec (.sweep []) s = .next { s with owedSweep := SweepUnit.all, sweepNext := 0 } ∧
    ((∀ c, some c ∈ s.channels → c.lostAtSweep = false) →
      exec (.sweep [.channels]) s = .next { s with
        owedSweep := [.trip .one, .trip .two]
        sweepNext := 0
        channels := s.channels.map (Option.map fun c =>
          if c.state = .outOfService then c
          else if c.seen then { c with seen := false, miss := 0 }
          else { c with miss := if c.miss < 255 then c.miss + 1 else c.miss }) })

/-- A channel lost at its check goes to FAILED_OVER where its fallback is LIVE, else to STALE, with CHANNEL_LOST set
(R52). A drum grace count that reaches DRUM_GRACE adds DRUM_LOW_LOW; where the set was empty TRIPPED follows (R169,
R167, R110). -/
def Obligations.SweepEvents : Prop :=
  (∀ (i : Nat) (c : Channel) (s : State), s.resetAsserted = false → .channels ∈ s.owedSweep → s.sweepNext = i →
    s.channel i = some c → c.state = .warming ∨ c.state = .live ∨ c.state = .calibrating → c.seen = false →
    c.miss < 255 → c.window ≤ c.miss + 1 → s.attention.causes.length = 15 →
    ∃ t, exec (.channelLost i) s = .next t ∧ t.sweepNext = i + 1 ∧
      ((∃ f, c.fallback = some f ∧ s.isLive f = true) →
        t.channels = s.channels.set i (some { c with miss := c.miss + 1, state := .failedOver })) ∧
      ((∀ f, c.fallback = some f → s.isLive f = false) →
        t.channels = s.channels.set i (some { c with miss := c.miss + 1, state := .stale })) ∧
      (t.cause .channelLost).status = true ∧ (t.cause .channelLost).held = some ⟨c.line, s.plantTime, i⟩) ∧
  (∀ (l : Line) (s : State), s.resetAsserted = false → .trip l ∈ s.owedSweep →
    s.roleValue (s.binding l).drumLevel = none → (s.tripOf l).grace < 255 →
    s.lineLimit l .drumGrace ≤ ((s.tripOf l).grace + 1 : Int) → (s.tripOf l).causes.drumLowLow = false →
    ∃ t, exec (.drumGraceExpiry l) s = .next t ∧ t.owedSweep = s.owedSweep.erase (.trip l) ∧
      t.tripOf l = ⟨{ (s.tripOf l).causes with drumLowLow := true }, (s.tripOf l).grace + 1⟩ ∧
      (∀ m, m ≠ l → t.tripOf m = s.tripOf m) ∧
      ((s.tripOf l).causes.isEmpty = true → (t.feedOf l).holds.tripped = true))

/-! ### Requests: form, refusals, reading -/

/-- The form tests of R11: the rows that no table or code admits are answered BAD_REQUEST, and so is a request without
confirm whose argument area has another length than its fixed arguments, or a request with confirm whose area is shorter;
nothing changes but the queues of the exchange. A write of a read-only table is refused so by R14, a deletion from a table
that takes none by R190, with R22, R117, R155, R161 and R183 for theirs; which malformed requests fall under these rows
and under UNKNOWN_REQUEST is the model's reading of the opcode table (DEDUCED, log 8). -/
def Obligations.FormRefusals : Prop :=
  ∀ (row : Instr) (r : Request) (rest : List Request) (s : State), Ready row r rest s →
    row ∈ [Instr.unknownRequest, .writeEntryReadOnly, .deleteEntryRefused] ∨
    (∃ n, (row, n) ∈ [(Instr.readTable, 4), (.writeEntryMatch, 53), (.pointInsert, 11),
        (.writeEntryActuators, 24), (.writeEntryFeedSettings, 7), (.writeEntryRunback, 10), (.writeEntryDispatch, 5),
        (.writeEntryNotices, 6), (.deleteEntryPoints, 3), (.deleteEntryActuators, 3), (.setLimit, 3), (.setOverride, 3),
        (.clearOverride, 1), (.setTime, 4), (.setChannelService, 2), (.rearmChannel, 1), (.enableRam, 1), (.holdFeed, 1),
        (.clearHold, 2), (.trip, 1), (.stopRunback, 0), (.readStatus, 0), (.readCapture, 2), (.releaseCapture, 1),
        (.clearAttention, 2), (.clearPortErrors, 1), (.setNotices, 2)] ∧ r.args.length ≠ n) ∨
    (row = .writeEntryBindings ∧ r.args.length ≠ if indexArg r.args = 0 then 6 else 25) ∨
    (row ∈ [Instr.tripReset, .newYear] ∧ r.args = []) →
    exec row s = .next (withReply r rest .badRequest [] s)

/-- A request that needs a confirm block and carries none is answered BAD_CONFIRM, and the request frame is offered with
source CONFIRM_FAIL, ahead of the REPLY and while the reservation is held (R11, R32, R174, R187, R188).
An offer to the capture store, this one or any other: from a DISARMED source it changes nothing; from an ARMED one it is
stored in the lowest free slot, the source becomes DISARMED and CAPTURE_TAKEN is set; with no slot free it is missed and
CAPTURE_MISSED is set; nothing else changes but what the NOTICEs take (R174, R180). That the NOTICEs stand ahead of the
REPLY, at the execution's end, is the model's choice (log 18). -/
def Obligations.ConfirmNotFound : Prop :=
  (∀ (row : Instr) (r : Request) (rest : List Request) (s : State), Ready row r rest s →
    row = .freeze ∨ row = .restart ∨ ((row = .tripReset ∨ row = .newYear) ∧ r.args ≠ []) → ¬ Confirms r s →
    exec row s = .next (withReply r rest .badConfirm []
      (asEvent (captureOffer ⟨.confirmFail, .supervisor, r.arrived, .absorbed, r.frame.bytes⟩)
        { s with requests := rest, reservation := true })) ∧
    (s.armed .confirmFail = false → exec row s = .next (withReply r rest .badConfirm [] s))) ∧
  (∀ (o : CaptureRecord) (s : State),
    let t := asEvent (captureOffer o) s
    (s.armed o.source = false → t = s) ∧
    (∀ i, s.armed o.source = true → s.freeSlot = some i →
      OnlyNotices [.captureTaken] { s with capture := t.capture } t ∧
      t.capture = { s.capture with
        slots := s.capture.slots.set i (some o)
        armed := s.capture.armed.set o.source.code false } ∧
      (s.attention.causes.length = 15 →
        (t.cause .captureTaken).status = true ∧ (t.cause .captureTaken).held = some ⟨none, s.plantTime, i⟩)) ∧
    (s.armed o.source = true → s.freeSlot = none →
      OnlyNotices [.captureMissed] { s with capture := t.capture } t ∧
      t.capture = { s.capture with
        missed := if s.capture.missed < 65535 then s.capture.missed + 1 else s.capture.missed } ∧
      (s.attention.causes.length = 15 →
        (t.cause .captureMissed).status = true ∧
          (t.cause .captureMissed).held = some ⟨none, s.plantTime, o.source.code⟩)))

/-- Every request that executes ends with its REPLY as the last frame of the SUPERVISOR ROUTINE queue; where its status is
other than DONE, PARTIAL and BAD_CONFIRM, that REPLY is the only frame added, and all block state stays as it stood
(R187). -/
def Obligations.RefusalsChangeNothing : Prop :=
  ∀ (row : Instr) (r : Request) (rest : List Request) (s : State), isRequestRow row = true → Ready row r rest s →
    ∃ t st data, exec row s = .next t ∧ Answered r (if row = .restart ∧ st = .done then [] else rest) st data s.ownStation t ∧
      (st ≠ .done → st ≠ .partly → st ≠ .badConfirm → t = withReply r rest st [] s)

/-- READ_STATUS is answered DONE with the 20-byte status area, in every mode and state, and changes nothing; with an
argument area that is not empty it is answered BAD_REQUEST (R191). -/
def Obligations.ReadStatusReply : Prop :=
  ∀ (r : Request) (rest : List Request) (s : State), Ready .readStatus r rest s →
    (r.args ≠ [] → exec .readStatus s = .next (withReply r rest .badRequest [] s)) ∧
    (r.args = [] → exec .readStatus s = .next (withReply r rest .done
      (be32 s.identity.toNat ++ [s.ownStation, if s.limits.mode = .operate then 1 else 0] ++ be32 s.plantTime ++
        [u8 (s.feedOf .one).holds.byte, u8 (s.feedOf .two).holds.byte, u8 (s.tripOf .one).causes.byte,
         u8 (s.tripOf .two).causes.byte, u8 s.dispatch.sink.code] ++ be16 s.dispatch.allowed ++
        [u8 s.runback.envelope.code] ++ be16 s.attention.statusSet) s))

/-- READ_TABLE (R13, R189): an accepted request is answered DONE with at most 53 bytes and changes nothing of the part
(the counter of free values is the model's own, log 16); on LIMITS the data are the next index, the count and the
records, as many as asked, as there are, and as fit. A count of 0 and an index beyond the table are REFUSED_RANGE. -/
def Obligations.ReadTableReply : Prop :=
  ∀ (r : Request) (rest : List Request) (table i1 i0 count : Byte) (last : Nat) (s : State),
    Ready .readTable r rest s → r.args = [table, i1, i0, count] → lastIndex? table.toNat = some last →
    let first := i1.toNat * 256 + i0.toNat
    ((count = 0#8 ∨ last < first ∨ (table = 5#8 ∧ first = 0)) →
      exec .readTable s = .next (withReply r rest .refusedRange [] s)) ∧
    (count ≠ 0#8 → first ≤ last → ¬(table = 5#8 ∧ first = 0) →
      ∃ data, data.length ≤ 53 ∧
        exec .readTable s = .next (withReply r rest .done data { s with freeCount := s.freeCount + 1 }) ∧
        (table = 9#8 →
          let k := min (min count.toNat 10) (52 - first)
          data = be16 (if 52 ≤ first + k then 0xFFFF else first + k) ++ [u8 k] ++
            (List.range k).flatMap fun j =>
              let e := s.limits.entries.getD (first + j) ⟨0, none⟩
              sbe16 e.effective ++ sbe16 e.commissioned ++ [if e.override.isSome then 1#8 else 0#8]))

/-! ### Requests: table writes -/

/-- WRITE_ENTRY on MATCH, FEED_SETTINGS and RUNBACK replaces the record whole and changes nothing else; a release select
of 4 to 7 is IGNORED (R22, R117, R161). -/
def Obligations.SettingsWrites : Prop :=
  (∀ (r : Request) (rest : List Request) (slot control minimum : Byte) (mask value : List Byte) (d : Direction) (s : State),
    Ready .writeEntryMatch r rest s → r.args = [1, 0, slot, control, minimum] ++ mask ++ value →
    mask.length = 24 → value.length = 24 → slot.toNat ≤ 23 → control.toNat < 64 → 8 ≤ minimum.toNat → minimum.toNat ≤ 63 →
    control.toNat / 4 % 4 = d.code →
    exec .writeEntryMatch s = .next (withReply r rest .done [] { s with
      matchTable := s.matchTable.set slot.toNat
        ⟨control.getLsbD 0, d, minimum.toNat, mask, value, Action.ofCode (control.toNat / 16), control.getLsbD 1⟩ })) ∧
  (∀ (r : Request) (rest : List Request) (l : Line) (ttl : Nat) (timeout settle : Byte) (s : State),
    Ready .writeEntryFeedSettings r rest s → r.args = [5, 0, u8 l.code] ++ be16 ttl ++ [timeout, settle] →
    10 ≤ ttl → ttl ≤ 600 → 2 ≤ timeout.toNat → timeout.toNat ≤ 60 → 1 ≤ settle.toNat → settle.toNat ≤ 120 →
    exec .writeEntryFeedSettings s = .next (withReply r rest .done [] { s with
      feed := s.feed.set l { s.feedOf l with ttl := ttl, timeout := timeout.toNat, settle := settle.toNat } })) ∧
  (∀ (r : Request) (rest : List Request) (depth floor hold : Nat) (select : Byte) (s : State),
    Ready .writeEntryRunback r rest s → r.args = [6, 0, 0] ++ be16 depth ++ be16 floor ++ be16 hold ++ [select] →
    10 ≤ depth → depth ≤ 600 → floor ≤ 600 → 5 ≤ hold → hold ≤ 300 →
    (select.toNat ≤ 3 → exec .writeEntryRunback s = .next (withReply r rest .done [] { s with
      runback := { s.runback with depth := depth, floor := floor, hold := hold, releaseSelect := select.toNat } })) ∧
    (4 ≤ select.toNat → select.toNat ≤ 7 →
      exec .writeEntryRunback s = .next (withReply r rest .ignored [] s)))

/-- WRITE_ENTRY on POINTS for a new point: it takes the lowest-numbered UNSET channel in WARMING and enters the map; a map
without an UNSET channel refuses it (R45). -/
def Obligations.PointInsertEffect : Prop :=
  ∀ (r : Request) (rest : List Request) (i1 i0 channel line warm window fallback : Byte) (point : Nat)
    (cls : ChannelClass) (l : Option Line) (s : State),
    Ready .pointInsert r rest s →
    r.args = [2, i1, i0] ++ be16 point ++ [channel, u8 cls.code, line, warm, window, fallback] → point < 65536 →
    s.hasPoint point = false → line = u8 (lineCode l) → 1 ≤ warm.toNat → warm.toNat ≤ 15 → 2 ≤ window.toNat →
    window.toNat ≤ 40 → (fallback = 255#8 ∨ (fallback.toNat < 96 ∧ (s.channel fallback.toNat).isSome = true)) →
    (∀ x, s.channels[x]? = some none → (∀ y, y < x → s.channels[y]? ≠ some none) →
      exec .pointInsert s = .next (withReply r rest .done [] { s with
        points := insertPoint (point, x) s.points
        channels := s.channels.set x (some
          { point := point, cls := cls, line := l, warmCount := warm.toNat, window := window.toNat,
            fallback := if fallback = 255#8 then none else some fallback.toNat,
            state := .warming, own := none, quality := .bad, lastTime := 0, seen := false, miss := 0, good := 0 }) })) ∧
    (none ∉ s.channels → exec .pointInsert s = .next (withReply r rest .refusedRange [] s))

/-- WRITE_ENTRY on POINTS for a point that is present (R46): the settings are replaced; a new class or line puts the
channel into WARMING without its value; an own index as fallback is refused. What an OUT_OF_SERVICE channel keeps beside
state and value then is the model's reading (log 23), and is not stated here. -/
def Obligations.PointUpdateEffect : Prop :=
  ∀ (r : Request) (rest : List Request) (i1 i0 channel line warm window fallback : Byte) (point x : Nat)
    (cls : ChannelClass) (l : Option Line) (c : Channel) (s : State),
    Ready .pointUpdate r rest s →
    r.args = [2, i1, i0] ++ be16 point ++ [channel, u8 cls.code, line, warm, window, fallback] → point < 65536 →
    s.channelOfPoint point = some x → s.channel x = some c → line = u8 (lineCode l) → 1 ≤ warm.toNat →
    warm.toNat ≤ 15 → 2 ≤ window.toNat → window.toNat ≤ 40 →
    (fallback = 255#8 ∨ (fallback.toNat < 96 ∧ (s.channel fallback.toNat).isSome = true)) →
    let fb := if fallback = 255#8 then none else some fallback.toNat
    (fb = some x → exec .pointUpdate s = .next (withReply r rest .refusedRange [] s)) ∧
    (fb ≠ some x →
      ∃ t, exec .pointUpdate s = .next t ∧ Answered r rest .done [] s.ownStation t ∧ t.points = s.points ∧
        (c.cls = cls → c.line = l → t.channels = s.channels.set x (some
          { c with warmCount := warm.toNat, window := window.toNat, fallback := fb })) ∧
        (c.cls ≠ cls ∨ c.line ≠ l → c.state ≠ .outOfService → t.channels = s.channels.set x (some
          { c with
            cls := cls, line := l, warmCount := warm.toNat, window := window.toNat, fallback := fb,
            state := .warming, own := none, seen := false, miss := 0, good := 0 })) ∧
        (c.cls ≠ cls ∨ c.line ≠ l → c.state = .outOfService →
          (t.channel x).map (fun d => (d.cls, d.line, d.state, d.own)) = some (cls, l, .outOfService, none)))

/-- DELETE_ENTRY: a point whose channel is named nowhere leaves the map and its channel is UNSET; an actuator entry that
no binding names and that is no ram of a stroke in flight becomes empty; what is absent is UNKNOWN and what is named is
REFUSED_IN_USE (R47, R81). -/
def Obligations.DeletionsEffect : Prop :=
  (∀ (r : Request) (rest : List Request) (point : Nat) (s : State), Ready .deleteEntryPoints r rest s →
    r.args = [2] ++ be16 point → point < 65536 →
    (s.channelOfPoint point = none → exec .deleteEntryPoints s = .next (withReply r rest .unknown [] s)) ∧
    (∀ x, s.channelOfPoint point = some x → s.channelInUse x = true →
      exec .deleteEntryPoints s = .next (withReply r rest .refusedInUse [] s)) ∧
    (∀ x, s.channelOfPoint point = some x → s.channelInUse x = false →
      exec .deleteEntryPoints s = .next (withReply r rest .done [] { s with
        points := s.points.filter fun p => p.1 ≠ point
        channels := s.channels.set x none }))) ∧
  (∀ (r : Request) (rest : List Request) (entry : Byte) (s : State), Ready .deleteEntryActuators r rest s →
    r.args = [3, 0, entry] → entry.toNat ≤ 47 →
    (s.actuator entry.toNat = none → exec .deleteEntryActuators s = .next (withReply r rest .unknown [] s)) ∧
    (∀ a, s.actuator entry.toNat = some a → (s.entryNamed entry.toNat a || s.ramInFlight entry.toNat) = true →
      exec .deleteEntryActuators s = .next (withReply r rest .refusedInUse [] s)) ∧
    (∀ a, s.actuator entry.toNat = some a → s.entryNamed entry.toNat a = false → s.ramInFlight entry.toNat = false →
      exec .deleteEntryActuators s =
        .next (withReply r rest .done [] { s with actuators := s.actuators.set entry.toNat none })))

/-- WRITE_ENTRY on ACTUATORS: a record that passes the tests of R79 replaces the entry, last forwarded value apart; every
other entry keeps all but its last forwarded value (R79, R80). -/
def Obligations.ActuatorWriteEffect : Prop :=
  ∀ (r : Request) (rest : List Request) (a : Actuator) (s : State), Ready .writeEntryActuators r rest s →
    r.args.length = 24 → indexArg r.args ≤ 47 → s.actuators.length = 48 →
    Actuator.ofRecord? (recordArg r.args) = some a → s.actuatorFits a = true →
    s.otherEntry (indexArg r.args) (·.number == a.number) = false →
    (a.role = .turbineLoad → s.otherEntry (indexArg r.args) (·.role == .turbineLoad) = false) →
    s.breaksBinding (indexArg r.args) a = false →
    (s.ramInFlight (indexArg r.args) = true →
      exec .writeEntryActuators s = .next (withReply r rest .refusedBusy [] s)) ∧
    (s.ramInFlight (indexArg r.args) = false →
      ∃ t, exec .writeEntryActuators s = .next t ∧ Answered r rest .done [] s.ownStation t ∧
        SameActuators { s with actuators := s.actuators.set (indexArg r.args) (some a) } t ∧
        t.channels = s.channels ∧ t.lineBinding = s.lineBinding ∧ t.limits = s.limits)

/-- WRITE_ENTRY on a line's BINDINGS record: one whose fields all fit replaces the record; a feed group that the other line
binds is REFUSED_IN_USE, and a change of the ram fields is REFUSED_BUSY while the engine is IN_STROKE (R58, R59). That the
IN_USE test stands before the fit of the fields is the model's choice (log 15).
WRITE_ENTRY on the plant BINDINGS record: a field that does not fit is REFUSED_RANGE; one whose fields fit replaces the
record. Where neither status role changes nothing else does; where one changes, the sink state is derived anew and a change
posted to both feed admission units; where the turbine's changes, the allowed load is computed anew (R58, R60, R112, R141,
R149, R156). -/
def Obligations.BindingWriteEffect : Prop :=
  (∀ (r : Request) (rest : List Request) (l : Line) (s : State), Ready .writeEntryBindings r rest s →
    r.args.length = 25 → indexArg r.args = l.code → lineRecordCoded (recordArg r.args) = true →
    let new := LineBinding.ofRecord (recordArg r.args)
    ((new.feedBound && (s.binding (otherLine l)).feedGroupIs new.feedGroup) = true →
      exec .writeEntryBindings s = .next (withReply r rest .refusedInUse [] s)) ∧
    ((new.feedBound && (s.binding (otherLine l)).feedGroupIs new.feedGroup) = false →
      s.lineBindingFits l new = true →
      (ramFieldsDiffer (s.binding l) new = true → s.inStroke l = true →
        exec .writeEntryBindings s = .next (withReply r rest .refusedBusy [] s)) ∧
      (ramFieldsDiffer (s.binding l) new = false ∨ s.inStroke l = false →
        ∃ t, exec .writeEntryBindings s = .next t ∧ Answered r rest .done [] s.ownStation t ∧
          t.lineBinding = s.lineBinding.set l new ∧ t.plantBinding = s.plantBinding ∧ t.channels = s.channels ∧
          SameActuators s t ∧ t.limits = s.limits))) ∧
  (∀ (r : Request) (rest : List Request) (turbine bypass load : Byte) (s : State), Ready .writeEntryBindings r rest s →
    r.args = [4, 0, 0, turbine, bypass, load] →
    let role (x : Byte) : Option Nat := if x = 255#8 then none else some x.toNat
    let fits : Prop :=
      (∀ x, x = turbine ∨ x = bypass → x = 255#8 ∨ ∃ c, s.channel x.toNat = some c ∧ c.cls = .status) ∧
        (load = 255#8 ∨ ∃ a, s.actuator load.toNat = some a ∧ a.role = .turbineLoad)
    let status (x : Byte) : Option Int := if x = 255#8 then none else s.effective x.toNat
    let changed : Prop := s.plantBinding.turbineStatus ≠ role turbine ∨ s.plantBinding.bypassStatus ≠ role bypass
    (¬ fits → exec .writeEntryBindings s = .next (withReply r rest .refusedRange [] s)) ∧
    (fits → ¬ changed → exec .writeEntryBindings s = .next (withReply r rest .done [] { s with
      plantBinding := ⟨role turbine, role bypass, role load⟩ })) ∧
    (fits → changed →
      ∃ t, exec .writeEntryBindings s = .next t ∧ Answered r rest .done [] s.ownStation t ∧
        t.plantBinding = ⟨role turbine, role bypass, role load⟩ ∧ t.lineBinding = s.lineBinding ∧
        t.channels = s.channels ∧ SameActuators s t ∧ t.limits = s.limits ∧ t.runback = s.runback ∧ t.trip = s.trip ∧
        t.dispatch.sink =
          (if status turbine = some 1 then .full else if status bypass = some 1 then .limited else .none) ∧
        (t.dispatch.sink ≠ s.dispatch.sink →
          ∀ l, (t.feedOf l).holds.noSink = decide (t.dispatch.sink = .none)) ∧
        (s.plantBinding.turbineStatus = role turbine → t.dispatch.allowed = s.dispatch.allowed) ∧
        (s.plantBinding.turbineStatus ≠ role turbine → t.dispatch.allowed =
          if status turbine = some 1 then
            let load := min (min (s.dispatch.ramped / 60) s.dispatch.steamLoad) s.maxLoad
            (s.dispatch.cap.map fun cap => min load (cap / 60)).getD load
          else 0)))

/-- WRITE_ENTRY on DISPATCH replaces gateway station and follow; a station above 250 and a follow above 1 are refused.
Unless follow is turned on nothing else changes; where it is, the allowed load is compared with the last forwarded value of
the bound TURBINE_LOAD entry, and where that is absent or differs a SET at the allowed load is originated, ROUTINE, to the
entry, and nothing else happens (R153, R155; that the NOTICE of a loss is built at the execution's end: log 18).
How an originated command, that SET or any other, enters its queue: it takes over the verb and value of the first waiting
command for its actuator in that queue, which keeps its place, header and SEQ; else it takes a slot at the tail with the
counter's SEQ; else it is lost and ORIGIN_LOSS is set. An URGENT one that enters removes the ROUTINE commands for its
actuator; a SET that enters sets the last forwarded value (R28 to R31, R89, R90). The marks of waiting frames are the
model's own (log 14), and so is it that a transit credit of 8 stays 8 where that removal empties the ROUTINE queue, of
which R33 does not speak (log 35). -/
def Obligations.DispatchWriteAndOriginatedCommands : Prop :=
  (∀ (r : Request) (rest : List Request) (station follow : Byte) (s : State), Ready .writeEntryDispatch r rest s →
    r.args = [7, 0, 0, station, follow] →
    (250 < station.toNat ∨ 1 < follow.toNat →
      exec .writeEntryDispatch s = .next (withReply r rest .refusedRange [] s)) ∧
    (station.toNat ≤ 250 → follow.toNat ≤ 1 →
      let u := { s with dispatch := { s.dispatch with gateway := station.toNat, follow := follow == 1 } }
      (s.dispatch.follow = true ∨ follow = 0#8 →
        exec .writeEntryDispatch s = .next (withReply r rest .done [] u)) ∧
      (s.dispatch.follow = false → follow = 1#8 →
        (s.plantBinding.turbineLoad = none → exec .writeEntryDispatch s = .next (withReply r rest .done [] u)) ∧
        (∀ e, s.plantBinding.turbineLoad = some e →
          (s.actuator e = none → exec .writeEntryDispatch s = .next (withReply r rest .done [] u)) ∧
          (∀ a, s.actuator e = some a →
            (a.last = some (s.dispatch.allowed : Int) →
              exec .writeEntryDispatch s = .next (withReply r rest .done [] u)) ∧
            (a.last ≠ some (s.dispatch.allowed : Int) →
              exec .writeEntryDispatch s = .next (withReply r rest .done []
                (asEvent (originateCommand .routine ⟨a.number, .set, s.dispatch.allowed⟩)
                  { u with requests := rest, reservation := true })))))))) ∧
  (∀ (pr : Priority) (c : Command) (s : State),
    let q := (s.port .field).origin pr
    let payload := be16 c.number ++ [c.verb.code] ++ sbe16 c.value
    let t := originateCommand pr c s
    let left (ws : List Waiting) : List Waiting :=
      if pr = .urgent then ws.filter fun w => !w.commands c.number else ws
    (∀ before w after, q = before ++ w :: after → (∀ x ∈ before, x.commands c.number = false) →
      w.commands c.number = true →
      let placed := before ++ { w with frame := { w.frame with payload := payload } } :: after
      t = { s with
        actuators := t.actuators
        ports := s.ports.set .field
          (match pr with
          | .urgent => { s.port .field with urgent := placed, routine := left (s.port .field).routine }
          | .routine => { s.port .field with routine := placed }) }) ∧
    ((∀ w ∈ q, w.commands c.number = false) → q.length < (if pr = .urgent then 8 else 16) →
      let placed := q ++ [⟨s.nextMark, ⟨255#8, s.ownStation, 0x20#8, u8 (s.port .field).seq, 0x02#8, payload⟩⟩]
      let seq := ((s.port .field).seq + 1) % 256
      t = { s with
        actuators := t.actuators
        nextMark := s.nextMark + 1
        ports := s.ports.set .field
          (match pr with
          | .urgent => { s.port .field with urgent := placed, routine := left (s.port .field).routine, seq := seq }
          | .routine => { s.port .field with routine := placed, seq := seq }) }) ∧
    ((∀ w ∈ q, w.commands c.number = false) → (if pr = .urgent then 8 else 16) ≤ q.length →
      { t with attention := s.attention } = s ∧ (∀ k, k ≠ .originLoss → t.cause k = s.cause k) ∧
      (s.attention.causes.length = 15 →
        (t.cause .originLoss).status = true ∧ (t.cause .originLoss).held = some ⟨none, s.plantTime, 0⟩)) ∧
    (c.verb ≠ .set → t.actuators = s.actuators) ∧
    (∀ e a, c.verb = .set → s.entryOf c.number = some e → s.actuator e = some a →
      ((∃ w ∈ q, w.commands c.number = true) ∨ q.length < (if pr = .urgent then 8 else 16) →
        (t.actuator e).map (·.last) = some (some c.value)) ∧
      (∀ k, k ≠ e → t.actuator k = s.actuator k) ∧ SameActuators s t))

/-- SET_NOTICES and WRITE_ENTRY on NOTICES replace all 15 enables, the latter the station as well; statuses stay but that
a NOTICE they cause may be lost and set ORIGIN_LOSS (R183). -/
def Obligations.NoticesWrites : Prop :=
  ∀ (row : Instr) (r : Request) (rest : List Request) (station : Byte) (set : Nat) (s : State), Ready row r rest s →
    (row = .writeEntryNotices ∧ r.args = [8, 0, 0, station] ++ be16 set) ∨
      (row = .setNotices ∧ r.args = be16 set ∧ station.toNat = s.attention.station) →
    station.toNat ≤ 250 → set < 32768 → s.attention.causes.length = 15 →
    ∃ t, exec row s = .next t ∧ Answered r rest .done [] s.ownStation t ∧ t.attention.station = station.toNat ∧
      (∀ c, (t.cause c).enable = set.testBit (c.code - 1)) ∧
      (∀ c, c ≠ .originLoss → (t.cause c).status = (s.cause c).status ∧ (t.cause c).held = (s.cause c).held) ∧
      { t with
        ports := s.ports, attention := s.attention, nextMark := s.nextMark,
        requests := s.requests, reservation := s.reservation } = s

/-! ### Requests: limit table and clock -/

/-- SET_LIMIT: refused for an index above 51 and in OPERATE, and for a value outside the range; otherwise the commissioned
value is written, an override that is now looser removed, and every other entry kept (R65). -/
def Obligations.SetLimitEffect : Prop :=
  ∀ (r : Request) (rest : List Request) (index : Byte) (v : Int) (s : State), Ready .setLimit r rest s →
    r.args = [index] ++ sbe16 v → -32768 ≤ v → v ≤ 32767 → s.limits.entries.length = 52 →
    (51 < index.toNat → exec .setLimit s = .next (withReply r rest .refusedRange [] s)) ∧
    (∀ i : LimitId, i.index = index.toNat →
      (s.limits.mode = .operate → exec .setLimit s = .next (withReply r rest .refusedMode [] s)) ∧
      (s.limits.mode = .commission → v < i.range.1 ∨ i.range.2 < v →
        exec .setLimit s = .next (withReply r rest .refusedRange [] s)) ∧
      (s.limits.mode = .commission → i.range.1 ≤ v → v ≤ i.range.2 →
        ∃ t, exec .setLimit s = .next t ∧ Answered r rest .done [] s.ownStation t ∧
          t.limits = { s.limits with
            entries := s.limits.entries.set index.toNat ⟨v, (s.limitEntry i).override.filter fun o => !i.looser o v⟩ }))

/-- SET_OVERRIDE and CLEAR_OVERRIDE (R66 to R68): an index above 51 is REFUSED_RANGE, an entry that accepts no override is
BAD_REQUEST. An override that passes the tests is set, and one that is held is cleared, every other entry kept; a value
outside the range is REFUSED_RANGE, one that is looser than the commissioned value REFUSED_LOOSEN; a drum pair that would
not be ordered is REFUSED_RANGE, at either request; clearing an override that is absent is IGNORED. -/
def Obligations.OverridesEffect : Prop :=
  ∀ (r : Request) (rest : List Request) (index : Byte) (v : Int) (s : State), -32768 ≤ v → v ≤ 32767 →
    s.limits.entries.length = 52 →
    (51 < index.toNat →
      (Ready .setOverride r rest s → r.args = [index] ++ sbe16 v →
        exec .setOverride s = .next (withReply r rest .refusedRange [] s)) ∧
      (Ready .clearOverride r rest s → r.args = [index] →
        exec .clearOverride s = .next (withReply r rest .refusedRange [] s))) ∧
    (∀ i : LimitId, i.index = index.toNat →
      (Ready .setOverride r rest s → r.args = [index] ++ sbe16 v →
        (i.acceptsOverride = false → exec .setOverride s = .next (withReply r rest .badRequest [] s)) ∧
        (i.acceptsOverride = true → v < i.range.1 ∨ i.range.2 < v →
          exec .setOverride s = .next (withReply r rest .refusedRange [] s)) ∧
        (i.acceptsOverride = true → i.range.1 ≤ v → v ≤ i.range.2 →
          (i.looser v (s.limitEntry i).commissioned = true →
            exec .setOverride s = .next (withReply r rest .refusedLoosen [] s)) ∧
          (i.looser v (s.limitEntry i).commissioned = false →
            (∀ l, i = .line l .drumLowLow → s.lineLimit l .drumLow ≤ v →
              exec .setOverride s = .next (withReply r rest .refusedRange [] s)) ∧
            (∀ l, i = .line l .drumLow → v ≤ s.lineLimit l .drumLowLow →
              exec .setOverride s = .next (withReply r rest .refusedRange [] s)) ∧
            ((∀ l, i = .line l .drumLowLow → v < s.lineLimit l .drumLow) →
              (∀ l, i = .line l .drumLow → s.lineLimit l .drumLowLow < v) →
              ∃ t, exec .setOverride s = .next t ∧ Answered r rest .done [] s.ownStation t ∧
                t.limits = { s.limits with
                  entries := s.limits.entries.set i.index { s.limitEntry i with override := some v } })))) ∧
      (Ready .clearOverride r rest s → r.args = [index] →
        (i.acceptsOverride = false → exec .clearOverride s = .next (withReply r rest .badRequest [] s)) ∧
        (i.acceptsOverride = true →
          ((s.limitEntry i).override = none → exec .clearOverride s = .next (withReply r rest .ignored [] s)) ∧
          ((s.limitEntry i).override ≠ none →
            (∀ l, i = .line l .drumLow → (s.limitEntry i).commissioned ≤ s.lineLimit l .drumLowLow →
              exec .clearOverride s = .next (withReply r rest .refusedRange [] s)) ∧
            ((∀ l, i = .line l .drumLow → s.lineLimit l .drumLowLow < (s.limitEntry i).commissioned) →
              ∃ t, exec .clearOverride s = .next t ∧ Answered r rest .done [] s.ownStation t ∧
                t.limits = { s.limits with
                  entries := s.limits.entries.set i.index { s.limitEntry i with override := none } })))))

/-- FREEZE with its confirm block: in OPERATE refused; in COMMISSION a table that passes the tests is frozen with the code
of its 52 values, and one that does not is refused (R71, R72). -/
def Obligations.FreezeEffect : Prop :=
  ∀ (r : Request) (rest : List Request) (s : State), Ready .freeze r rest s → Confirms r s →
    (s.limits.mode = .operate → exec .freeze s = .next (withReply r rest .refusedMode [] s)) ∧
    (s.limits.mode = .commission → s.freezable = true → exec .freeze s = .next (withReply r rest .done [] { s with
      limits := { s.limits with
        mode := .operate, scrubCount := 0, checkCode := crc (s.limits.entries.flatMap fun e => sbe16 e.commissioned) } })) ∧
    (s.limits.mode = .commission → s.freezable = false →
      exec .freeze s = .next (withReply r rest .refusedRange [] s))

/-- SET_TIME: in COMMISSION, and in OPERATE within 60 s either way, plant time becomes the value; otherwise REFUSED_RANGE
(R43). -/
def Obligations.SetTimeEffect : Prop :=
  ∀ (r : Request) (rest : List Request) (time : Nat) (s : State), Ready .setTime r rest s → r.args = be32 time →
    time < 4294967296 →
    (s.limits.mode = .commission ∨ (time ≤ s.plantTime + 60 ∧ s.plantTime ≤ time + 60) →
      ∃ t, exec .setTime s = .next t ∧ Answered r rest .done [] s.ownStation t ∧ t.plantTime = time ∧
        t.limits.mode = s.limits.mode ∧ t.channels = s.channels) ∧
    (s.limits.mode = .operate → s.plantTime + 60 < time ∨ time + 60 < s.plantTime →
      exec .setTime s = .next (withReply r rest .refusedRange [] s))

/-! ### Requests: channels, rams, holds -/

/-- SET_CHANNEL_SERVICE and REARM_CHANNEL (R53, R54): an index above 95 and an UNSET channel are refused; any other channel
goes by the service value and its state as the rules give. -/
def Obligations.ChannelServiceEffects : Prop :=
  ∀ (r : Request) (rest : List Request) (x : Byte) (s : State),
    (∀ row, Ready row r rest s →
      (row = .setChannelService ∧ ∃ v, r.args = [x, v]) ∨ (row = .rearmChannel ∧ r.args = [x]) →
      (95 < x.toNat → exec row s = .next (withReply r rest .refusedRange [] s)) ∧
      (x.toNat ≤ 95 → s.channel x.toNat = none → exec row s = .next (withReply r rest .unknown [] s))) ∧
    (∀ c, x.toNat ≤ 95 → s.channel x.toNat = some c →
      (Ready .setChannelService r rest s → r.args = [x, 2] → c.state ≠ .outOfService →
        ∃ t, exec .setChannelService s = .next t ∧ Answered r rest .done [] s.ownStation t ∧
          t.channels = s.channels.set x.toNat (some { c with state := .outOfService }) ∧ t.points = s.points) ∧
      (Ready .setChannelService r rest s → r.args = [x, 1] → c.state = .outOfService →
        ∃ t, exec .setChannelService s = .next t ∧ Answered r rest .done [] s.ownStation t ∧
          t.channels = s.channels.set x.toNat
            (some { c with state := .warming, seen := false, miss := 0, good := 0 }) ∧ t.points = s.points) ∧
      (∀ v : Byte, Ready .setChannelService r rest s → r.args = [x, v] →
        (v = 2#8 ∧ c.state = .outOfService) ∨ (v = 1#8 ∧ c.state ≠ .outOfService) ∨ (v ≠ 1#8 ∧ v ≠ 2#8) →
        exec .setChannelService s = .next (withReply r rest .ignored [] s)) ∧
      (Ready .rearmChannel r rest s → r.args = [x] →
        (c.state ≠ .failedOver → exec .rearmChannel s = .next (withReply r rest .ignored [] s)) ∧
        (c.state = .failedOver →
          ∃ t, exec .rearmChannel s = .next t ∧ Answered r rest .done [] s.ownStation t ∧
            t.channels = s.channels.set x.toNat
              (some { c with state := .warming, seen := false, miss := 0, good := 0 }) ∧ t.points = s.points)))

/-- ENABLE_RAM, row by row of R116's table. -/
def Obligations.EnableRamTable : Prop :=
  ∀ (r : Request) (rest : List Request) (entry : Byte) (s : State), Ready .enableRam r rest s → r.args = [entry] →
    (47 < entry.toNat → exec .enableRam s = .next (withReply r rest .refusedRange [] s)) ∧
    (entry.toNat ≤ 47 → s.actuator entry.toNat = none → exec .enableRam s = .next (withReply r rest .unknown [] s)) ∧
    (∀ a, entry.toNat ≤ 47 → s.actuator entry.toNat = some a →
      (a.role ≠ .feedRam → exec .enableRam s = .next (withReply r rest .refusedRange [] s)) ∧
      (a.role = .feedRam → a.ram = .inService → exec .enableRam s = .next (withReply r rest .ignored [] s)) ∧
      (a.role = .feedRam → a.ram ≠ .inService →
        ∃ t, exec .enableRam s = .next t ∧ Answered r rest .done [] s.ownStation t ∧
          SameActuators { s with actuators := s.actuators.set entry.toNat (some { a with ram := .inService }) } t ∧
          (∀ l, s.ramOf l entry.toNat = true → (t.feedOf l).holds.noRam = false) ∧
          (s.ramOf .one entry.toNat = false → s.ramOf .two entry.toNat = false →
            t = withReply r rest .done []
              { s with actuators := s.actuators.set entry.toNat (some { a with ram := .inService }) })))

/-- HOLD_FEED and CLEAR_HOLD (R106, R109, R114): MANUAL is added, and a stroke in flight is aborted; MANUAL is removed;
EMISSION is removed where no episode is OPEN and the minutes are below the budget, else REFUSED_BUSY; the causes that
follow conditions are never removed by request. -/
def Obligations.HoldRequests : Prop :=
  ∀ (r : Request) (rest : List Request) (l : Line) (s : State),
    (Ready .holdFeed r rest s → r.args = [u8 l.code] →
      ((s.feedOf l).holds.manual = true → exec .holdFeed s = .next (withReply r rest .ignored [] s)) ∧
      ((s.feedOf l).holds.manual = false →
        ∃ t, exec .holdFeed s = .next t ∧ Answered r rest .done [] s.ownStation t ∧
          (t.feedOf l).holds = { (s.feedOf l).holds with manual := true } ∧
          (∀ m, m ≠ l → t.feedOf m = s.feedOf m) ∧ t.inStroke l = false ∧
          (t.feedOf l).queue = (s.feedOf l).queue ∧ (t.feedOf l).bed = (s.feedOf l).bed ∧ SameActuators s t ∧
          { t with
            ports := s.ports, attention := s.attention, nextMark := s.nextMark, actuators := s.actuators,
            requests := s.requests, reservation := s.reservation, feed := s.feed } = s)) ∧
    (Ready .clearHold r rest s → r.args = [u8 l.code, 1] →
      ((s.feedOf l).holds.manual = false → exec .clearHold s = .next (withReply r rest .ignored [] s)) ∧
      ((s.feedOf l).holds.manual = true →
        ∃ t, exec .clearHold s = .next t ∧ Answered r rest .done [] s.ownStation t ∧
          (t.feedOf l).holds = { (s.feedOf l).holds with manual := false } ∧
          (∀ m, m ≠ l → t.feedOf m = s.feedOf m))) ∧
    (Ready .clearHold r rest s → r.args = [u8 l.code, 5] →
      ((s.feedOf l).holds.emission = false → exec .clearHold s = .next (withReply r rest .ignored [] s)) ∧
      ((s.feedOf l).holds.emission = true →
        (∃ e ∈ s.log, e.status = .open ∧ e.kind = .halfHour ∧ e.line = l) ∨
          s.lineLimit l .budget ≤ ((s.averagerOf l).minutes : Int) →
        exec .clearHold s = .next (withReply r rest .refusedBusy [] s)) ∧
      ((s.feedOf l).holds.emission = true → (∀ e ∈ s.log, e.status = .open → e.kind = .halfHour → e.line ≠ l) →
        ((s.averagerOf l).minutes : Int) < s.lineLimit l .budget →
        ∃ t, exec .clearHold s = .next t ∧ Answered r rest .done [] s.ownStation t ∧
          (t.feedOf l).holds = { (s.feedOf l).holds with emission := false } ∧
          (t.feedOf l).reasons = ⟨false, false, false⟩ ∧ (∀ m, m ≠ l → t.feedOf m = s.feedOf m))) ∧
    (∀ c : Byte, Ready .clearHold r rest s → r.args = [u8 l.code, c] →
      (c = 0#8 ∨ 7 ≤ c.toNat → exec .clearHold s = .next (withReply r rest .refusedRange [] s)) ∧
      (∀ h, HoldCause.ofCode? c.toNat = some h → h ≠ .manual → h ≠ .emission →
        exec .clearHold s =
          .next (withReply r rest (if (s.feedOf l).holds.get h then .refusedBusy else .ignored) [] s)))

/-! ### Requests: trips, runback, averager, capture, attention -/

/-- TRIP and TRIP_RESET (R167, R170, R171): MANUAL is added, and TRIPPED where the set was empty; a TRIP_RESET removes
MANUAL, RESTART in OPERATE, DRUM_LOW_LOW at a drum at or above DRUM_LOW, never INTEGRITY, and answers the set that
remains. -/
def Obligations.TripRequests : Prop :=
  ∀ (r : Request) (rest : List Request) (l : Line) (s : State),
    (Ready .trip r rest s → r.args = [u8 l.code] →
      ((s.tripOf l).causes.manual = true → exec .trip s = .next (withReply r rest .ignored [] s)) ∧
      ((s.tripOf l).causes.manual = false →
        ∃ t, exec .trip s = .next t ∧ Answered r rest .done [] s.ownStation t ∧
          t.tripOf l = { s.tripOf l with causes := { (s.tripOf l).causes with manual := true } } ∧
          (∀ m, m ≠ l → t.tripOf m = s.tripOf m) ∧ t.tripOutput l = true ∧
          ((s.tripOf l).causes.isEmpty = true → (t.feedOf l).holds.tripped = true ∧
            ((s.feedOf l).holds.tripped = false → t.inStroke l = false)) ∧
          t.limits = s.limits ∧ t.channels = s.channels ∧ SameActuators s t)) ∧
    (Ready .tripReset r rest s → r.args.head? = some (u8 l.code) → Confirms r s →
      ∃ t left, exec .tripReset s = .next t ∧
        left.restart = ((s.tripOf l).causes.restart && decide (s.limits.mode = .commission)) ∧
        left.integrity = (s.tripOf l).causes.integrity ∧ left.manual = false ∧
        (left.drumLowLow = true ↔ (s.tripOf l).causes.drumLowLow = true ∧
          ∀ v, s.roleValue (s.binding l).drumLevel = some v → v < s.lineLimit l .drumLow) ∧
        t.tripOf l = { s.tripOf l with causes := left } ∧ (∀ m, m ≠ l → t.tripOf m = s.tripOf m) ∧
        Answered r rest (if left = ⟨false, false, false, false⟩ then .done else .partly) [u8 left.byte] s.ownStation t ∧
        ((s.tripOf l).causes.isEmpty = false → left = ⟨false, false, false, false⟩ →
          (t.feedOf l).holds.tripped = false ∧ t.runback.lineTrip.get l = false))

/-- STOP_RUNBACK (R165): refused while a condition holds; else an envelope that is not IDLE goes to IDLE, its cap becomes
absent and the absence is posted, and one that is IDLE is IGNORED. That the stopped hold count keeps its value is the
model's choice (log 37). -/
def Obligations.StopRunbackEffect : Prop :=
  ∀ (r : Request) (rest : List Request) (s : State), Ready .stopRunback r rest s → r.args = [] →
    (s.runback.lineTrip.one = true ∨ s.runback.lineTrip.two = true ∨ s.runback.drum.one = true ∨
        s.runback.drum.two = true → exec .stopRunback s = .next (withReply r rest .refusedBusy [] s)) ∧
    (s.runback.lineTrip = ⟨false, false⟩ → s.runback.drum = ⟨false, false⟩ →
      (s.runback.envelope = .idle → exec .stopRunback s = .next (withReply r rest .ignored [] s)) ∧
      (s.runback.envelope ≠ .idle →
        ∃ t, exec .stopRunback s = .next t ∧ Answered r rest .done [] s.ownStation t ∧
          t.runback = { s.runback with envelope := .idle, cap := none, holdRunning := false } ∧
          t.dispatch.cap = none ∧ SameActuators s t ∧
          { t with
            ports := s.ports, attention := s.attention, nextMark := s.nextMark, actuators := s.actuators,
            requests := s.requests, reservation := s.reservation, runback := s.runback, dispatch := s.dispatch } = s))

/-- NEW_YEAR with its confirm block sets a line's minutes used to 0 and changes nothing else (R131). CLEAR_ATTENTION clears
status, mark and held event of the named causes that are set, is IGNORED where none is, and keeps every enable (R182). -/
def Obligations.NewYearAndClearAttention : Prop :=
  (∀ (r : Request) (rest : List Request) (l : Line) (s : State), Ready .newYear r rest s →
    r.args.head? = some (u8 l.code) → Confirms r s →
    exec .newYear s = .next (withReply r rest .done [] { s with
      averager := s.averager.set l { s.averagerOf l with minutes := 0 } })) ∧
  (∀ (r : Request) (rest : List Request) (set : Nat) (s : State), Ready .clearAttention r rest s → r.args = be16 set →
    set < 65536 → s.attention.causes.length = 15 →
    (32768 ≤ set → exec .clearAttention s = .next (withReply r rest .refusedRange [] s)) ∧
    (set < 32768 → (∀ c : Cause, set.testBit (c.code - 1) = true → (s.cause c).status = false) →
      exec .clearAttention s = .next (withReply r rest .ignored [] s)) ∧
    (set < 32768 → (∃ c : Cause, set.testBit (c.code - 1) = true ∧ (s.cause c).status = true) →
      ∃ t, exec .clearAttention s = .next t ∧ Answered r rest .done [] s.ownStation t ∧
        (∀ c, t.cause c = if set.testBit (c.code - 1) ∧ (s.cause c).status = true
          then ⟨false, (s.cause c).enable, false, none⟩ else s.cause c) ∧
        t = withReply r rest .done [] { s with attention := t.attention } ∧
        t.attention.station = s.attention.station))

/-- READ_CAPTURE and RELEASE_CAPTURE (R13, R176, R177): a slot above 7 is refused; a free slot reads as source 0xFF and
the missed count, and its release is IGNORED; a slot that holds a record reads as that record from the offset on, and its
release frees the slot and re-arms the record's source, nothing else. -/
def Obligations.CaptureRequests : Prop :=
  ∀ (r : Request) (rest : List Request) (slot : Byte) (s : State),
    (7 < slot.toNat →
      (∀ offset : Byte, Ready .readCapture r rest s → r.args = [slot, offset] →
        exec .readCapture s = .next (withReply r rest .refusedRange [] s)) ∧
      (Ready .releaseCapture r rest s → r.args = [slot] →
        exec .releaseCapture s = .next (withReply r rest .refusedRange [] s))) ∧
    (∀ offset : Byte, Ready .readCapture r rest s → r.args = [slot, offset] → slot.toNat ≤ 7 → offset.toNat ≤ 63 →
      (s.capture.slots.getD slot.toNat none = none →
        exec .readCapture s = .next (withReply r rest .done
          ([0xFF, 0] ++ be32 s.capture.missed ++ [0, 0, offset]) s)) ∧
      (∀ c, s.capture.slots.getD slot.toNat none = some c →
        (c.bytes.length < offset.toNat → exec .readCapture s = .next (withReply r rest .refusedRange [] s)) ∧
        (offset.toNat ≤ c.bytes.length →
          exec .readCapture s = .next (withReply r rest .done
            ([u8 c.source.code, u8 c.port.code] ++ be32 c.time ++
              [u8 c.disposition.code, u8 c.bytes.length, offset] ++ (c.bytes.drop offset.toNat).take 44) s)))) ∧
    (Ready .releaseCapture r rest s → r.args = [slot] → slot.toNat ≤ 7 →
      (s.capture.slots.getD slot.toNat none = none →
        exec .releaseCapture s = .next (withReply r rest .ignored [] s)) ∧
      (∀ c, s.capture.slots.getD slot.toNat none = some c →
        exec .releaseCapture s = .next (withReply r rest .done [] { s with
          capture := { s.capture with
            slots := s.capture.slots.set slot.toNat none
            armed := s.capture.armed.set c.source.code true } })))

/-- CLEAR_PORT_ERRORS (R6): the four counts of the record named, or of both, become 0; any other argument is answered
REFUSED_RANGE; the PORT_ERROR status, and everything else, stays. -/
def Obligations.ClearPortErrorsEffect : Prop :=
  ∀ (r : Request) (rest : List Request) (selection : Byte) (s : State), Ready .clearPortErrors r rest s →
    r.args = [selection] →
    (selection = 0#8 → exec .clearPortErrors s = .next (withReply r rest .done [] { s with
      ports := { s.ports with field := { s.ports.field with errors := ⟨0, 0, 0, 0⟩ } } })) ∧
    (selection = 1#8 → exec .clearPortErrors s = .next (withReply r rest .done [] { s with
      ports := { s.ports with supervisor := { s.ports.supervisor with errors := ⟨0, 0, 0, 0⟩ } } })) ∧
    (selection = 2#8 → exec .clearPortErrors s = .next (withReply r rest .done [] { s with
      ports := ⟨{ s.ports.field with errors := ⟨0, 0, 0, 0⟩ }, { s.ports.supervisor with errors := ⟨0, 0, 0, 0⟩ }⟩ })) ∧
    (3 ≤ selection.toNat → exec .clearPortErrors s = .next (withReply r rest .refusedRange [] s))

/-! ### What the part computes -/

/-- The effective value (R55): the own value of a LIVE channel, else that of its LIVE fallback, else UNAVAILABLE; so every
value used is the own value of a channel in state LIVE. -/
def Obligations.EffectiveValueIsLive : Prop :=
  ∀ (x : Nat) (s : State),
    (∀ c, s.channel x = some c → c.state = .live → s.effective x = c.own) ∧
    (∀ c f d, s.channel x = some c → c.state ≠ .live → c.fallback = some f → s.channel f = some d → d.state = .live →
      s.effective x = d.own) ∧
    (∀ c, s.channel x = some c → c.state ≠ .live →
      (∀ f d, c.fallback = some f → s.channel f = some d → d.state ≠ .live) → s.effective x = none) ∧
    (s.channel x = none → s.effective x = none) ∧
    (∀ v, s.effective x = some v → ∃ y d, s.channel y = some d ∧ d.state = .live ∧ d.own = some v)

/-! ### Invariants that every step keeps -/

/-- TRIPPED is held while a line's trip cause set is non-empty (R110, R167); NO_SINK is held by both lines while the sink
state is NONE (R112). -/
def Obligations.HoldsFollowConditionsAlways : Prop :=
  ∀ s t : State, step s = .next t →
    (s.tripsHoldFeed → t.tripsHoldFeed) ∧ (s.noSinkHoldsFeed → t.noSinkHoldsFeed)

/-- EMISSION is held while it has a reason, and whenever the minutes used are at or above the effective BUDGET (R113). -/
def Obligations.BudgetHoldsFeedAlways : Prop :=
  ∀ s t : State, s.budgetHoldsFeed → s.limits.entries.length = 52 → step s = .next t → t.budgetHoldsFeed

/-- A stroke is in flight only while the line's hold set is empty (R106). -/
def Obligations.StrokesUnheldAlways : Prop :=
  ∀ s t : State, s.strokesUnheld → step s = .next t → t.strokesUnheld

/-- A capture source is DISARMED exactly when the store holds a record of it (R174). -/
def Obligations.CaptureConsistentAlways : Prop :=
  ∀ s t : State, s.capture.consistent → step s = .next t → t.capture.consistent

/-- The queues never hold more than they can: transit, origin, request and stroke queues, and no reservation is left over
(R19, R26, R31, R32, R95, R186); every table keeps its size; the exceedance log never holds more than 32 entries, and its
OPEN entries are the averagers' open episodes (R129, R130, R139). -/
def Obligations.StoresSizedAlways : Prop :=
  ∀ s t : State, step s = .next t →
    (s.queuesBounded → t.queuesBounded) ∧ (s.tablesSized → t.tablesSized) ∧ (s.logBounded → t.logBounded)

/-- A line's bed charge never exceeds its commissioned BED_CEILING (R98). -/
def Obligations.BedsUnderCeilingAlways : Prop :=
  ∀ s t : State, s.bedsUnderCeiling → step s = .next t → t.bedsUnderCeiling

/-- In OPERATE each line's effective DRUM_LOW_LOW stays below its effective DRUM_LOW (R67). -/
def Obligations.DrumPairsOrderedAlways : Prop :=
  ∀ s t : State, s.drumPairsOrdered → step s = .next t → t.drumPairsOrdered

/-- The order queue stays sound, and the allowed load within its bounds (R146, R149). -/
def Obligations.DispatchSoundAlways : Prop :=
  ∀ s t : State, s.ordersSound → s.loadBounded → step s = .next t → t.ordersSound ∧ t.loadBounded

/-- The point map and the channel records stay in agreement (section 3.2 of 03_plant_clock_and_channels.md). -/
def Obligations.PointsSoundAlways : Prop :=
  ∀ s t : State, s.pointsSound → step s = .next t → t.pointsSound
end

