-- ==== Sys2Proof/Laws/State.lean ====
section
/-! SUPPORT. One lemma for each field and each named update of the state, and the laws of the containers. -/

namespace Sys2Proof

/-! ### Containers -/

@[simp] theorem PerPort.get_set_self {α : Type} (x : PerPort α) (p : PortId) (a : α) : (x.set p a).get p = a := by
  cases p <;> rfl

theorem PerPort.get_set_ne {α : Type} (x : PerPort α) {p p' : PortId} (a : α) (h : p' ≠ p) :
    (x.set p a).get p' = x.get p' := by
  cases p <;> cases p' <;> first | rfl | exact absurd rfl h

theorem PerPort.get_set {α : Type} (x : PerPort α) (p p' : PortId) (a : α) :
    (x.set p a).get p' = if p' = p then a else x.get p' := by
  cases p <;> cases p' <;> rfl

@[simp] theorem PerPort.set_get_self {α : Type} (x : PerPort α) (p : PortId) : x.set p (x.get p) = x := by
  cases p <;> rfl

@[simp] theorem PerLine.get_set_self {α : Type} (x : PerLine α) (l : Line) (a : α) : (x.set l a).get l = a := by
  cases l <;> rfl

theorem PerLine.get_set_ne {α : Type} (x : PerLine α) {l l' : Line} (a : α) (h : l' ≠ l) :
    (x.set l a).get l' = x.get l' := by
  cases l <;> cases l' <;> first | rfl | exact absurd rfl h

theorem PerLine.get_set {α : Type} (x : PerLine α) (l l' : Line) (a : α) :
    (x.set l a).get l' = if l' = l then a else x.get l' := by
  cases l <;> cases l' <;> rfl

@[simp] theorem PerLine.set_get_self {α : Type} (x : PerLine α) (l : Line) : x.set l (x.get l) = x := by
  cases l <;> rfl

@[simp] theorem PerPollutant.get_set_self {α : Type} (x : PerPollutant α) (p : Pollutant) (a : α) : (x.set p a).get p = a := by
  cases p <;> rfl

theorem PerPollutant.get_set_ne {α : Type} (x : PerPollutant α) {p p' : Pollutant} (a : α) (h : p' ≠ p) :
    (x.set p a).get p' = x.get p' := by
  cases p <;> cases p' <;> first | rfl | exact absurd rfl h

theorem PerPollutant.get_set {α : Type} (x : PerPollutant α) (p p' : Pollutant) (a : α) :
    (x.set p a).get p' = if p' = p then a else x.get p' := by
  cases p <;> cases p' <;> rfl

@[simp] theorem PerPollutant.set_get_self {α : Type} (x : PerPollutant α) (p : Pollutant) : x.set p (x.get p) = x := by
  cases p <;> rfl

@[simp] theorem PerReagent.get_set_self {α : Type} (x : PerReagent α) (r : Reagent) (a : α) : (x.set r a).get r = a := by
  cases r <;> rfl

theorem PerReagent.get_set_ne {α : Type} (x : PerReagent α) {r r' : Reagent} (a : α) (h : r' ≠ r) :
    (x.set r a).get r' = x.get r' := by
  cases r <;> cases r' <;> first | rfl | exact absurd rfl h

theorem PerReagent.get_set {α : Type} (x : PerReagent α) (r r' : Reagent) (a : α) :
    (x.set r a).get r' = if r' = r then a else x.get r' := by
  cases r <;> cases r' <;> rfl

@[simp] theorem PerReagent.set_get_self {α : Type} (x : PerReagent α) (r : Reagent) : x.set r (x.get r) = x := by
  cases r <;> rfl

@[simp] theorem PerPollutant.get_all {α : Type} (a : α) (p : Pollutant) : (PerPollutant.all a).get p = a := by
  cases p <;> rfl

end Sys2Proof

namespace Sys2Proof.Machine

variable (s : State)

/-! ### modPort -/

@[simp] theorem State.modPort_resetAsserted (p : PortId) (f : Port → Port) : (s.modPort p f).resetAsserted = s.resetAsserted := rfl
@[simp] theorem State.modPort_identity (p : PortId) (f : Port → Port) : (s.modPort p f).identity = s.identity := rfl
@[simp] theorem State.modPort_ownStation (p : PortId) (f : Port → Port) : (s.modPort p f).ownStation = s.ownStation := rfl
@[simp] theorem State.modPort_matchTable (p : PortId) (f : Port → Port) : (s.modPort p f).matchTable = s.matchTable := rfl
@[simp] theorem State.modPort_reservation (p : PortId) (f : Port → Port) : (s.modPort p f).reservation = s.reservation := rfl
@[simp] theorem State.modPort_requests (p : PortId) (f : Port → Port) : (s.modPort p f).requests = s.requests := rfl
@[simp] theorem State.modPort_plantTime (p : PortId) (f : Port → Port) : (s.modPort p f).plantTime = s.plantTime := rfl
@[simp] theorem State.modPort_points (p : PortId) (f : Port → Port) : (s.modPort p f).points = s.points := rfl
@[simp] theorem State.modPort_channels (p : PortId) (f : Port → Port) : (s.modPort p f).channels = s.channels := rfl
@[simp] theorem State.modPort_plantBinding (p : PortId) (f : Port → Port) : (s.modPort p f).plantBinding = s.plantBinding := rfl
@[simp] theorem State.modPort_lineBinding (p : PortId) (f : Port → Port) : (s.modPort p f).lineBinding = s.lineBinding := rfl
@[simp] theorem State.modPort_unmapped (p : PortId) (f : Port → Port) : (s.modPort p f).unmapped = s.unmapped := rfl
@[simp] theorem State.modPort_malformed (p : PortId) (f : Port → Port) : (s.modPort p f).malformed = s.malformed := rfl
@[simp] theorem State.modPort_limits (p : PortId) (f : Port → Port) : (s.modPort p f).limits = s.limits := rfl
@[simp] theorem State.modPort_actuators (p : PortId) (f : Port → Port) : (s.modPort p f).actuators = s.actuators := rfl
@[simp] theorem State.modPort_withheld (p : PortId) (f : Port → Port) : (s.modPort p f).withheld = s.withheld := rfl
@[simp] theorem State.modPort_unguarded (p : PortId) (f : Port → Port) : (s.modPort p f).unguarded = s.unguarded := rfl
@[simp] theorem State.modPort_feed (p : PortId) (f : Port → Port) : (s.modPort p f).feed = s.feed := rfl
@[simp] theorem State.modPort_averager (p : PortId) (f : Port → Port) : (s.modPort p f).averager = s.averager := rfl
@[simp] theorem State.modPort_log (p : PortId) (f : Port → Port) : (s.modPort p f).log = s.log := rfl
@[simp] theorem State.modPort_nextEntry (p : PortId) (f : Port → Port) : (s.modPort p f).nextEntry = s.nextEntry := rfl
@[simp] theorem State.modPort_dispatch (p : PortId) (f : Port → Port) : (s.modPort p f).dispatch = s.dispatch := rfl
@[simp] theorem State.modPort_runback (p : PortId) (f : Port → Port) : (s.modPort p f).runback = s.runback := rfl
@[simp] theorem State.modPort_trip (p : PortId) (f : Port → Port) : (s.modPort p f).trip = s.trip := rfl
@[simp] theorem State.modPort_capture (p : PortId) (f : Port → Port) : (s.modPort p f).capture = s.capture := rfl
@[simp] theorem State.modPort_attention (p : PortId) (f : Port → Port) : (s.modPort p f).attention = s.attention := rfl
@[simp] theorem State.modPort_owedTick (p : PortId) (f : Port → Port) : (s.modPort p f).owedTick = s.owedTick := rfl
@[simp] theorem State.modPort_owedSweep (p : PortId) (f : Port → Port) : (s.modPort p f).owedSweep = s.owedSweep := rfl
@[simp] theorem State.modPort_sweepNext (p : PortId) (f : Port → Port) : (s.modPort p f).sweepNext = s.sweepNext := rfl
@[simp] theorem State.modPort_tripOffers (p : PortId) (f : Port → Port) : (s.modPort p f).tripOffers = s.tripOffers := rfl
@[simp] theorem State.modPort_nextMark (p : PortId) (f : Port → Port) : (s.modPort p f).nextMark = s.nextMark := rfl
@[simp] theorem State.modPort_script (p : PortId) (f : Port → Port) : (s.modPort p f).script = s.script := rfl
@[simp] theorem State.modPort_freeCount (p : PortId) (f : Port → Port) : (s.modPort p f).freeCount = s.freeCount := rfl
@[simp] theorem State.modPort_pending (p : PortId) (f : Port → Port) : (s.modPort p f).pending = s.pending := rfl
@[simp] theorem State.modPort_ports (p : PortId) (f : Port → Port) : (s.modPort p f).ports = s.ports.set p (f (s.ports.get p)) := rfl

/-! ### modFeed -/

@[simp] theorem State.modFeed_resetAsserted (l : Line) (f : Feed → Feed) : (s.modFeed l f).resetAsserted = s.resetAsserted := rfl
@[simp] theorem State.modFeed_identity (l : Line) (f : Feed → Feed) : (s.modFeed l f).identity = s.identity := rfl
@[simp] theorem State.modFeed_ownStation (l : Line) (f : Feed → Feed) : (s.modFeed l f).ownStation = s.ownStation := rfl
@[simp] theorem State.modFeed_ports (l : Line) (f : Feed → Feed) : (s.modFeed l f).ports = s.ports := rfl
@[simp] theorem State.modFeed_matchTable (l : Line) (f : Feed → Feed) : (s.modFeed l f).matchTable = s.matchTable := rfl
@[simp] theorem State.modFeed_reservation (l : Line) (f : Feed → Feed) : (s.modFeed l f).reservation = s.reservation := rfl
@[simp] theorem State.modFeed_requests (l : Line) (f : Feed → Feed) : (s.modFeed l f).requests = s.requests := rfl
@[simp] theorem State.modFeed_plantTime (l : Line) (f : Feed → Feed) : (s.modFeed l f).plantTime = s.plantTime := rfl
@[simp] theorem State.modFeed_points (l : Line) (f : Feed → Feed) : (s.modFeed l f).points = s.points := rfl
@[simp] theorem State.modFeed_channels (l : Line) (f : Feed → Feed) : (s.modFeed l f).channels = s.channels := rfl
@[simp] theorem State.modFeed_plantBinding (l : Line) (f : Feed → Feed) : (s.modFeed l f).plantBinding = s.plantBinding := rfl
@[simp] theorem State.modFeed_lineBinding (l : Line) (f : Feed → Feed) : (s.modFeed l f).lineBinding = s.lineBinding := rfl
@[simp] theorem State.modFeed_unmapped (l : Line) (f : Feed → Feed) : (s.modFeed l f).unmapped = s.unmapped := rfl
@[simp] theorem State.modFeed_malformed (l : Line) (f : Feed → Feed) : (s.modFeed l f).malformed = s.malformed := rfl
@[simp] theorem State.modFeed_limits (l : Line) (f : Feed → Feed) : (s.modFeed l f).limits = s.limits := rfl
@[simp] theorem State.modFeed_actuators (l : Line) (f : Feed → Feed) : (s.modFeed l f).actuators = s.actuators := rfl
@[simp] theorem State.modFeed_withheld (l : Line) (f : Feed → Feed) : (s.modFeed l f).withheld = s.withheld := rfl
@[simp] theorem State.modFeed_unguarded (l : Line) (f : Feed → Feed) : (s.modFeed l f).unguarded = s.unguarded := rfl
@[simp] theorem State.modFeed_averager (l : Line) (f : Feed → Feed) : (s.modFeed l f).averager = s.averager := rfl
@[simp] theorem State.modFeed_log (l : Line) (f : Feed → Feed) : (s.modFeed l f).log = s.log := rfl
@[simp] theorem State.modFeed_nextEntry (l : Line) (f : Feed → Feed) : (s.modFeed l f).nextEntry = s.nextEntry := rfl
@[simp] theorem State.modFeed_dispatch (l : Line) (f : Feed → Feed) : (s.modFeed l f).dispatch = s.dispatch := rfl
@[simp] theorem State.modFeed_runback (l : Line) (f : Feed → Feed) : (s.modFeed l f).runback = s.runback := rfl
@[simp] theorem State.modFeed_trip (l : Line) (f : Feed → Feed) : (s.modFeed l f).trip = s.trip := rfl
@[simp] theorem State.modFeed_capture (l : Line) (f : Feed → Feed) : (s.modFeed l f).capture = s.capture := rfl
@[simp] theorem State.modFeed_attention (l : Line) (f : Feed → Feed) : (s.modFeed l f).attention = s.attention := rfl
@[simp] theorem State.modFeed_owedTick (l : Line) (f : Feed → Feed) : (s.modFeed l f).owedTick = s.owedTick := rfl
@[simp] theorem State.modFeed_owedSweep (l : Line) (f : Feed → Feed) : (s.modFeed l f).owedSweep = s.owedSweep := rfl
@[simp] theorem State.modFeed_sweepNext (l : Line) (f : Feed → Feed) : (s.modFeed l f).sweepNext = s.sweepNext := rfl
@[simp] theorem State.modFeed_tripOffers (l : Line) (f : Feed → Feed) : (s.modFeed l f).tripOffers = s.tripOffers := rfl
@[simp] theorem State.modFeed_nextMark (l : Line) (f : Feed → Feed) : (s.modFeed l f).nextMark = s.nextMark := rfl
@[simp] theorem State.modFeed_script (l : Line) (f : Feed → Feed) : (s.modFeed l f).script = s.script := rfl
@[simp] theorem State.modFeed_freeCount (l : Line) (f : Feed → Feed) : (s.modFeed l f).freeCount = s.freeCount := rfl
@[simp] theorem State.modFeed_pending (l : Line) (f : Feed → Feed) : (s.modFeed l f).pending = s.pending := rfl
@[simp] theorem State.modFeed_feed (l : Line) (f : Feed → Feed) : (s.modFeed l f).feed = s.feed.set l (f (s.feed.get l)) := rfl

/-! ### modAverager -/

@[simp] theorem State.modAverager_resetAsserted (l : Line) (f : Averager → Averager) : (s.modAverager l f).resetAsserted = s.resetAsserted := rfl
@[simp] theorem State.modAverager_identity (l : Line) (f : Averager → Averager) : (s.modAverager l f).identity = s.identity := rfl
@[simp] theorem State.modAverager_ownStation (l : Line) (f : Averager → Averager) : (s.modAverager l f).ownStation = s.ownStation := rfl
@[simp] theorem State.modAverager_ports (l : Line) (f : Averager → Averager) : (s.modAverager l f).ports = s.ports := rfl
@[simp] theorem State.modAverager_matchTable (l : Line) (f : Averager → Averager) : (s.modAverager l f).matchTable = s.matchTable := rfl
@[simp] theorem State.modAverager_reservation (l : Line) (f : Averager → Averager) : (s.modAverager l f).reservation = s.reservation := rfl
@[simp] theorem State.modAverager_requests (l : Line) (f : Averager → Averager) : (s.modAverager l f).requests = s.requests := rfl
@[simp] theorem State.modAverager_plantTime (l : Line) (f : Averager → Averager) : (s.modAverager l f).plantTime = s.plantTime := rfl
@[simp] theorem State.modAverager_points (l : Line) (f : Averager → Averager) : (s.modAverager l f).points = s.points := rfl
@[simp] theorem State.modAverager_channels (l : Line) (f : Averager → Averager) : (s.modAverager l f).channels = s.channels := rfl
@[simp] theorem State.modAverager_plantBinding (l : Line) (f : Averager → Averager) : (s.modAverager l f).plantBinding = s.plantBinding := rfl
@[simp] theorem State.modAverager_lineBinding (l : Line) (f : Averager → Averager) : (s.modAverager l f).lineBinding = s.lineBinding := rfl
@[simp] theorem State.modAverager_unmapped (l : Line) (f : Averager → Averager) : (s.modAverager l f).unmapped = s.unmapped := rfl
@[simp] theorem State.modAverager_malformed (l : Line) (f : Averager → Averager) : (s.modAverager l f).malformed = s.malformed := rfl
@[simp] theorem State.modAverager_limits (l : Line) (f : Averager → Averager) : (s.modAverager l f).limits = s.limits := rfl
@[simp] theorem State.modAverager_actuators (l : Line) (f : Averager → Averager) : (s.modAverager l f).actuators = s.actuators := rfl
@[simp] theorem State.modAverager_withheld (l : Line) (f : Averager → Averager) : (s.modAverager l f).withheld = s.withheld := rfl
@[simp] theorem State.modAverager_unguarded (l : Line) (f : Averager → Averager) : (s.modAverager l f).unguarded = s.unguarded := rfl
@[simp] theorem State.modAverager_feed (l : Line) (f : Averager → Averager) : (s.modAverager l f).feed = s.feed := rfl
@[simp] theorem State.modAverager_log (l : Line) (f : Averager → Averager) : (s.modAverager l f).log = s.log := rfl
@[simp] theorem State.modAverager_nextEntry (l : Line) (f : Averager → Averager) : (s.modAverager l f).nextEntry = s.nextEntry := rfl
@[simp] theorem State.modAverager_dispatch (l : Line) (f : Averager → Averager) : (s.modAverager l f).dispatch = s.dispatch := rfl
@[simp] theorem State.modAverager_runback (l : Line) (f : Averager → Averager) : (s.modAverager l f).runback = s.runback := rfl
@[simp] theorem State.modAverager_trip (l : Line) (f : Averager → Averager) : (s.modAverager l f).trip = s.trip := rfl
@[simp] theorem State.modAverager_capture (l : Line) (f : Averager → Averager) : (s.modAverager l f).capture = s.capture := rfl
@[simp] theorem State.modAverager_attention (l : Line) (f : Averager → Averager) : (s.modAverager l f).attention = s.attention := rfl
@[simp] theorem State.modAverager_owedTick (l : Line) (f : Averager → Averager) : (s.modAverager l f).owedTick = s.owedTick := rfl
@[simp] theorem State.modAverager_owedSweep (l : Line) (f : Averager → Averager) : (s.modAverager l f).owedSweep = s.owedSweep := rfl
@[simp] theorem State.modAverager_sweepNext (l : Line) (f : Averager → Averager) : (s.modAverager l f).sweepNext = s.sweepNext := rfl
@[simp] theorem State.modAverager_tripOffers (l : Line) (f : Averager → Averager) : (s.modAverager l f).tripOffers = s.tripOffers := rfl
@[simp] theorem State.modAverager_nextMark (l : Line) (f : Averager → Averager) : (s.modAverager l f).nextMark = s.nextMark := rfl
@[simp] theorem State.modAverager_script (l : Line) (f : Averager → Averager) : (s.modAverager l f).script = s.script := rfl
@[simp] theorem State.modAverager_freeCount (l : Line) (f : Averager → Averager) : (s.modAverager l f).freeCount = s.freeCount := rfl
@[simp] theorem State.modAverager_pending (l : Line) (f : Averager → Averager) : (s.modAverager l f).pending = s.pending := rfl
@[simp] theorem State.modAverager_averager (l : Line) (f : Averager → Averager) : (s.modAverager l f).averager = s.averager.set l (f (s.averager.get l)) := rfl

/-! ### modPollutant -/

@[simp] theorem State.modPollutant_resetAsserted (l : Line) (p : Pollutant) (f : PollutantState → PollutantState) : (s.modPollutant l p f).resetAsserted = s.resetAsserted := rfl
@[simp] theorem State.modPollutant_identity (l : Line) (p : Pollutant) (f : PollutantState → PollutantState) : (s.modPollutant l p f).identity = s.identity := rfl
@[simp] theorem State.modPollutant_ownStation (l : Line) (p : Pollutant) (f : PollutantState → PollutantState) : (s.modPollutant l p f).ownStation = s.ownStation := rfl
@[simp] theorem State.modPollutant_ports (l : Line) (p : Pollutant) (f : PollutantState → PollutantState) : (s.modPollutant l p f).ports = s.ports := rfl
@[simp] theorem State.modPollutant_matchTable (l : Line) (p : Pollutant) (f : PollutantState → PollutantState) : (s.modPollutant l p f).matchTable = s.matchTable := rfl
@[simp] theorem State.modPollutant_reservation (l : Line) (p : Pollutant) (f : PollutantState → PollutantState) : (s.modPollutant l p f).reservation = s.reservation := rfl
@[simp] theorem State.modPollutant_requests (l : Line) (p : Pollutant) (f : PollutantState → PollutantState) : (s.modPollutant l p f).requests = s.requests := rfl
@[simp] theorem State.modPollutant_plantTime (l : Line) (p : Pollutant) (f : PollutantState → PollutantState) : (s.modPollutant l p f).plantTime = s.plantTime := rfl
@[simp] theorem State.modPollutant_points (l : Line) (p : Pollutant) (f : PollutantState → PollutantState) : (s.modPollutant l p f).points = s.points := rfl
@[simp] theorem State.modPollutant_channels (l : Line) (p : Pollutant) (f : PollutantState → PollutantState) : (s.modPollutant l p f).channels = s.channels := rfl
@[simp] theorem State.modPollutant_plantBinding (l : Line) (p : Pollutant) (f : PollutantState → PollutantState) : (s.modPollutant l p f).plantBinding = s.plantBinding := rfl
@[simp] theorem State.modPollutant_lineBinding (l : Line) (p : Pollutant) (f : PollutantState → PollutantState) : (s.modPollutant l p f).lineBinding = s.lineBinding := rfl
@[simp] theorem State.modPollutant_unmapped (l : Line) (p : Pollutant) (f : PollutantState → PollutantState) : (s.modPollutant l p f).unmapped = s.unmapped := rfl
@[simp] theorem State.modPollutant_malformed (l : Line) (p : Pollutant) (f : PollutantState → PollutantState) : (s.modPollutant l p f).malformed = s.malformed := rfl
@[simp] theorem State.modPollutant_limits (l : Line) (p : Pollutant) (f : PollutantState → PollutantState) : (s.modPollutant l p f).limits = s.limits := rfl
@[simp] theorem State.modPollutant_actuators (l : Line) (p : Pollutant) (f : PollutantState → PollutantState) : (s.modPollutant l p f).actuators = s.actuators := rfl
@[simp] theorem State.modPollutant_withheld (l : Line) (p : Pollutant) (f : PollutantState → PollutantState) : (s.modPollutant l p f).withheld = s.withheld := rfl
@[simp] theorem State.modPollutant_unguarded (l : Line) (p : Pollutant) (f : PollutantState → PollutantState) : (s.modPollutant l p f).unguarded = s.unguarded := rfl
@[simp] theorem State.modPollutant_feed (l : Line) (p : Pollutant) (f : PollutantState → PollutantState) : (s.modPollutant l p f).feed = s.feed := rfl
@[simp] theorem State.modPollutant_log (l : Line) (p : Pollutant) (f : PollutantState → PollutantState) : (s.modPollutant l p f).log = s.log := rfl
@[simp] theorem State.modPollutant_nextEntry (l : Line) (p : Pollutant) (f : PollutantState → PollutantState) : (s.modPollutant l p f).nextEntry = s.nextEntry := rfl
@[simp] theorem State.modPollutant_dispatch (l : Line) (p : Pollutant) (f : PollutantState → PollutantState) : (s.modPollutant l p f).dispatch = s.dispatch := rfl
@[simp] theorem State.modPollutant_runback (l : Line) (p : Pollutant) (f : PollutantState → PollutantState) : (s.modPollutant l p f).runback = s.runback := rfl
@[simp] theorem State.modPollutant_trip (l : Line) (p : Pollutant) (f : PollutantState → PollutantState) : (s.modPollutant l p f).trip = s.trip := rfl
@[simp] theorem State.modPollutant_capture (l : Line) (p : Pollutant) (f : PollutantState → PollutantState) : (s.modPollutant l p f).capture = s.capture := rfl
@[simp] theorem State.modPollutant_attention (l : Line) (p : Pollutant) (f : PollutantState → PollutantState) : (s.modPollutant l p f).attention = s.attention := rfl
@[simp] theorem State.modPollutant_owedTick (l : Line) (p : Pollutant) (f : PollutantState → PollutantState) : (s.modPollutant l p f).owedTick = s.owedTick := rfl
@[simp] theorem State.modPollutant_owedSweep (l : Line) (p : Pollutant) (f : PollutantState → PollutantState) : (s.modPollutant l p f).owedSweep = s.owedSweep := rfl
@[simp] theorem State.modPollutant_sweepNext (l : Line) (p : Pollutant) (f : PollutantState → PollutantState) : (s.modPollutant l p f).sweepNext = s.sweepNext := rfl
@[simp] theorem State.modPollutant_tripOffers (l : Line) (p : Pollutant) (f : PollutantState → PollutantState) : (s.modPollutant l p f).tripOffers = s.tripOffers := rfl
@[simp] theorem State.modPollutant_nextMark (l : Line) (p : Pollutant) (f : PollutantState → PollutantState) : (s.modPollutant l p f).nextMark = s.nextMark := rfl
@[simp] theorem State.modPollutant_script (l : Line) (p : Pollutant) (f : PollutantState → PollutantState) : (s.modPollutant l p f).script = s.script := rfl
@[simp] theorem State.modPollutant_freeCount (l : Line) (p : Pollutant) (f : PollutantState → PollutantState) : (s.modPollutant l p f).freeCount = s.freeCount := rfl
@[simp] theorem State.modPollutant_pending (l : Line) (p : Pollutant) (f : PollutantState → PollutantState) : (s.modPollutant l p f).pending = s.pending := rfl

/-! ### modTrip -/

@[simp] theorem State.modTrip_resetAsserted (l : Line) (f : TripUnit → TripUnit) : (s.modTrip l f).resetAsserted = s.resetAsserted := rfl
@[simp] theorem State.modTrip_identity (l : Line) (f : TripUnit → TripUnit) : (s.modTrip l f).identity = s.identity := rfl
@[simp] theorem State.modTrip_ownStation (l : Line) (f : TripUnit → TripUnit) : (s.modTrip l f).ownStation = s.ownStation := rfl
@[simp] theorem State.modTrip_ports (l : Line) (f : TripUnit → TripUnit) : (s.modTrip l f).ports = s.ports := rfl
@[simp] theorem State.modTrip_matchTable (l : Line) (f : TripUnit → TripUnit) : (s.modTrip l f).matchTable = s.matchTable := rfl
@[simp] theorem State.modTrip_reservation (l : Line) (f : TripUnit → TripUnit) : (s.modTrip l f).reservation = s.reservation := rfl
@[simp] theorem State.modTrip_requests (l : Line) (f : TripUnit → TripUnit) : (s.modTrip l f).requests = s.requests := rfl
@[simp] theorem State.modTrip_plantTime (l : Line) (f : TripUnit → TripUnit) : (s.modTrip l f).plantTime = s.plantTime := rfl
@[simp] theorem State.modTrip_points (l : Line) (f : TripUnit → TripUnit) : (s.modTrip l f).points = s.points := rfl
@[simp] theorem State.modTrip_channels (l : Line) (f : TripUnit → TripUnit) : (s.modTrip l f).channels = s.channels := rfl
@[simp] theorem State.modTrip_plantBinding (l : Line) (f : TripUnit → TripUnit) : (s.modTrip l f).plantBinding = s.plantBinding := rfl
@[simp] theorem State.modTrip_lineBinding (l : Line) (f : TripUnit → TripUnit) : (s.modTrip l f).lineBinding = s.lineBinding := rfl
@[simp] theorem State.modTrip_unmapped (l : Line) (f : TripUnit → TripUnit) : (s.modTrip l f).unmapped = s.unmapped := rfl
@[simp] theorem State.modTrip_malformed (l : Line) (f : TripUnit → TripUnit) : (s.modTrip l f).malformed = s.malformed := rfl
@[simp] theorem State.modTrip_limits (l : Line) (f : TripUnit → TripUnit) : (s.modTrip l f).limits = s.limits := rfl
@[simp] theorem State.modTrip_actuators (l : Line) (f : TripUnit → TripUnit) : (s.modTrip l f).actuators = s.actuators := rfl
@[simp] theorem State.modTrip_withheld (l : Line) (f : TripUnit → TripUnit) : (s.modTrip l f).withheld = s.withheld := rfl
@[simp] theorem State.modTrip_unguarded (l : Line) (f : TripUnit → TripUnit) : (s.modTrip l f).unguarded = s.unguarded := rfl
@[simp] theorem State.modTrip_feed (l : Line) (f : TripUnit → TripUnit) : (s.modTrip l f).feed = s.feed := rfl
@[simp] theorem State.modTrip_averager (l : Line) (f : TripUnit → TripUnit) : (s.modTrip l f).averager = s.averager := rfl
@[simp] theorem State.modTrip_log (l : Line) (f : TripUnit → TripUnit) : (s.modTrip l f).log = s.log := rfl
@[simp] theorem State.modTrip_nextEntry (l : Line) (f : TripUnit → TripUnit) : (s.modTrip l f).nextEntry = s.nextEntry := rfl
@[simp] theorem State.modTrip_dispatch (l : Line) (f : TripUnit → TripUnit) : (s.modTrip l f).dispatch = s.dispatch := rfl
@[simp] theorem State.modTrip_runback (l : Line) (f : TripUnit → TripUnit) : (s.modTrip l f).runback = s.runback := rfl
@[simp] theorem State.modTrip_capture (l : Line) (f : TripUnit → TripUnit) : (s.modTrip l f).capture = s.capture := rfl
@[simp] theorem State.modTrip_attention (l : Line) (f : TripUnit → TripUnit) : (s.modTrip l f).attention = s.attention := rfl
@[simp] theorem State.modTrip_owedTick (l : Line) (f : TripUnit → TripUnit) : (s.modTrip l f).owedTick = s.owedTick := rfl
@[simp] theorem State.modTrip_owedSweep (l : Line) (f : TripUnit → TripUnit) : (s.modTrip l f).owedSweep = s.owedSweep := rfl
@[simp] theorem State.modTrip_sweepNext (l : Line) (f : TripUnit → TripUnit) : (s.modTrip l f).sweepNext = s.sweepNext := rfl
@[simp] theorem State.modTrip_tripOffers (l : Line) (f : TripUnit → TripUnit) : (s.modTrip l f).tripOffers = s.tripOffers := rfl
@[simp] theorem State.modTrip_nextMark (l : Line) (f : TripUnit → TripUnit) : (s.modTrip l f).nextMark = s.nextMark := rfl
@[simp] theorem State.modTrip_script (l : Line) (f : TripUnit → TripUnit) : (s.modTrip l f).script = s.script := rfl
@[simp] theorem State.modTrip_freeCount (l : Line) (f : TripUnit → TripUnit) : (s.modTrip l f).freeCount = s.freeCount := rfl
@[simp] theorem State.modTrip_pending (l : Line) (f : TripUnit → TripUnit) : (s.modTrip l f).pending = s.pending := rfl
@[simp] theorem State.modTrip_trip (l : Line) (f : TripUnit → TripUnit) : (s.modTrip l f).trip = s.trip.set l (f (s.trip.get l)) := rfl

/-! ### modDispatch -/

@[simp] theorem State.modDispatch_resetAsserted (f : DispatchUnit → DispatchUnit) : (s.modDispatch f).resetAsserted = s.resetAsserted := rfl
@[simp] theorem State.modDispatch_identity (f : DispatchUnit → DispatchUnit) : (s.modDispatch f).identity = s.identity := rfl
@[simp] theorem State.modDispatch_ownStation (f : DispatchUnit → DispatchUnit) : (s.modDispatch f).ownStation = s.ownStation := rfl
@[simp] theorem State.modDispatch_ports (f : DispatchUnit → DispatchUnit) : (s.modDispatch f).ports = s.ports := rfl
@[simp] theorem State.modDispatch_matchTable (f : DispatchUnit → DispatchUnit) : (s.modDispatch f).matchTable = s.matchTable := rfl
@[simp] theorem State.modDispatch_reservation (f : DispatchUnit → DispatchUnit) : (s.modDispatch f).reservation = s.reservation := rfl
@[simp] theorem State.modDispatch_requests (f : DispatchUnit → DispatchUnit) : (s.modDispatch f).requests = s.requests := rfl
@[simp] theorem State.modDispatch_plantTime (f : DispatchUnit → DispatchUnit) : (s.modDispatch f).plantTime = s.plantTime := rfl
@[simp] theorem State.modDispatch_points (f : DispatchUnit → DispatchUnit) : (s.modDispatch f).points = s.points := rfl
@[simp] theorem State.modDispatch_channels (f : DispatchUnit → DispatchUnit) : (s.modDispatch f).channels = s.channels := rfl
@[simp] theorem State.modDispatch_plantBinding (f : DispatchUnit → DispatchUnit) : (s.modDispatch f).plantBinding = s.plantBinding := rfl
@[simp] theorem State.modDispatch_lineBinding (f : DispatchUnit → DispatchUnit) : (s.modDispatch f).lineBinding = s.lineBinding := rfl
@[simp] theorem State.modDispatch_unmapped (f : DispatchUnit → DispatchUnit) : (s.modDispatch f).unmapped = s.unmapped := rfl
@[simp] theorem State.modDispatch_malformed (f : DispatchUnit → DispatchUnit) : (s.modDispatch f).malformed = s.malformed := rfl
@[simp] theorem State.modDispatch_limits (f : DispatchUnit → DispatchUnit) : (s.modDispatch f).limits = s.limits := rfl
@[simp] theorem State.modDispatch_actuators (f : DispatchUnit → DispatchUnit) : (s.modDispatch f).actuators = s.actuators := rfl
@[simp] theorem State.modDispatch_withheld (f : DispatchUnit → DispatchUnit) : (s.modDispatch f).withheld = s.withheld := rfl
@[simp] theorem State.modDispatch_unguarded (f : DispatchUnit → DispatchUnit) : (s.modDispatch f).unguarded = s.unguarded := rfl
@[simp] theorem State.modDispatch_feed (f : DispatchUnit → DispatchUnit) : (s.modDispatch f).feed = s.feed := rfl
@[simp] theorem State.modDispatch_averager (f : DispatchUnit → DispatchUnit) : (s.modDispatch f).averager = s.averager := rfl
@[simp] theorem State.modDispatch_log (f : DispatchUnit → DispatchUnit) : (s.modDispatch f).log = s.log := rfl
@[simp] theorem State.modDispatch_nextEntry (f : DispatchUnit → DispatchUnit) : (s.modDispatch f).nextEntry = s.nextEntry := rfl
@[simp] theorem State.modDispatch_runback (f : DispatchUnit → DispatchUnit) : (s.modDispatch f).runback = s.runback := rfl
@[simp] theorem State.modDispatch_trip (f : DispatchUnit → DispatchUnit) : (s.modDispatch f).trip = s.trip := rfl
@[simp] theorem State.modDispatch_capture (f : DispatchUnit → DispatchUnit) : (s.modDispatch f).capture = s.capture := rfl
@[simp] theorem State.modDispatch_attention (f : DispatchUnit → DispatchUnit) : (s.modDispatch f).attention = s.attention := rfl
@[simp] theorem State.modDispatch_owedTick (f : DispatchUnit → DispatchUnit) : (s.modDispatch f).owedTick = s.owedTick := rfl
@[simp] theorem State.modDispatch_owedSweep (f : DispatchUnit → DispatchUnit) : (s.modDispatch f).owedSweep = s.owedSweep := rfl
@[simp] theorem State.modDispatch_sweepNext (f : DispatchUnit → DispatchUnit) : (s.modDispatch f).sweepNext = s.sweepNext := rfl
@[simp] theorem State.modDispatch_tripOffers (f : DispatchUnit → DispatchUnit) : (s.modDispatch f).tripOffers = s.tripOffers := rfl
@[simp] theorem State.modDispatch_nextMark (f : DispatchUnit → DispatchUnit) : (s.modDispatch f).nextMark = s.nextMark := rfl
@[simp] theorem State.modDispatch_script (f : DispatchUnit → DispatchUnit) : (s.modDispatch f).script = s.script := rfl
@[simp] theorem State.modDispatch_freeCount (f : DispatchUnit → DispatchUnit) : (s.modDispatch f).freeCount = s.freeCount := rfl
@[simp] theorem State.modDispatch_pending (f : DispatchUnit → DispatchUnit) : (s.modDispatch f).pending = s.pending := rfl
@[simp] theorem State.modDispatch_dispatch (f : DispatchUnit → DispatchUnit) : (s.modDispatch f).dispatch = f s.dispatch := rfl

/-! ### modRunback -/

@[simp] theorem State.modRunback_resetAsserted (f : Runback → Runback) : (s.modRunback f).resetAsserted = s.resetAsserted := rfl
@[simp] theorem State.modRunback_identity (f : Runback → Runback) : (s.modRunback f).identity = s.identity := rfl
@[simp] theorem State.modRunback_ownStation (f : Runback → Runback) : (s.modRunback f).ownStation = s.ownStation := rfl
@[simp] theorem State.modRunback_ports (f : Runback → Runback) : (s.modRunback f).ports = s.ports := rfl
@[simp] theorem State.modRunback_matchTable (f : Runback → Runback) : (s.modRunback f).matchTable = s.matchTable := rfl
@[simp] theorem State.modRunback_reservation (f : Runback → Runback) : (s.modRunback f).reservation = s.reservation := rfl
@[simp] theorem State.modRunback_requests (f : Runback → Runback) : (s.modRunback f).requests = s.requests := rfl
@[simp] theorem State.modRunback_plantTime (f : Runback → Runback) : (s.modRunback f).plantTime = s.plantTime := rfl
@[simp] theorem State.modRunback_points (f : Runback → Runback) : (s.modRunback f).points = s.points := rfl
@[simp] theorem State.modRunback_channels (f : Runback → Runback) : (s.modRunback f).channels = s.channels := rfl
@[simp] theorem State.modRunback_plantBinding (f : Runback → Runback) : (s.modRunback f).plantBinding = s.plantBinding := rfl
@[simp] theorem State.modRunback_lineBinding (f : Runback → Runback) : (s.modRunback f).lineBinding = s.lineBinding := rfl
@[simp] theorem State.modRunback_unmapped (f : Runback → Runback) : (s.modRunback f).unmapped = s.unmapped := rfl
@[simp] theorem State.modRunback_malformed (f : Runback → Runback) : (s.modRunback f).malformed = s.malformed := rfl
@[simp] theorem State.modRunback_limits (f : Runback → Runback) : (s.modRunback f).limits = s.limits := rfl
@[simp] theorem State.modRunback_actuators (f : Runback → Runback) : (s.modRunback f).actuators = s.actuators := rfl
@[simp] theorem State.modRunback_withheld (f : Runback → Runback) : (s.modRunback f).withheld = s.withheld := rfl
@[simp] theorem State.modRunback_unguarded (f : Runback → Runback) : (s.modRunback f).unguarded = s.unguarded := rfl
@[simp] theorem State.modRunback_feed (f : Runback → Runback) : (s.modRunback f).feed = s.feed := rfl
@[simp] theorem State.modRunback_averager (f : Runback → Runback) : (s.modRunback f).averager = s.averager := rfl
@[simp] theorem State.modRunback_log (f : Runback → Runback) : (s.modRunback f).log = s.log := rfl
@[simp] theorem State.modRunback_nextEntry (f : Runback → Runback) : (s.modRunback f).nextEntry = s.nextEntry := rfl
@[simp] theorem State.modRunback_dispatch (f : Runback → Runback) : (s.modRunback f).dispatch = s.dispatch := rfl
@[simp] theorem State.modRunback_trip (f : Runback → Runback) : (s.modRunback f).trip = s.trip := rfl
@[simp] theorem State.modRunback_capture (f : Runback → Runback) : (s.modRunback f).capture = s.capture := rfl
@[simp] theorem State.modRunback_attention (f : Runback → Runback) : (s.modRunback f).attention = s.attention := rfl
@[simp] theorem State.modRunback_owedTick (f : Runback → Runback) : (s.modRunback f).owedTick = s.owedTick := rfl
@[simp] theorem State.modRunback_owedSweep (f : Runback → Runback) : (s.modRunback f).owedSweep = s.owedSweep := rfl
@[simp] theorem State.modRunback_sweepNext (f : Runback → Runback) : (s.modRunback f).sweepNext = s.sweepNext := rfl
@[simp] theorem State.modRunback_tripOffers (f : Runback → Runback) : (s.modRunback f).tripOffers = s.tripOffers := rfl
@[simp] theorem State.modRunback_nextMark (f : Runback → Runback) : (s.modRunback f).nextMark = s.nextMark := rfl
@[simp] theorem State.modRunback_script (f : Runback → Runback) : (s.modRunback f).script = s.script := rfl
@[simp] theorem State.modRunback_freeCount (f : Runback → Runback) : (s.modRunback f).freeCount = s.freeCount := rfl
@[simp] theorem State.modRunback_pending (f : Runback → Runback) : (s.modRunback f).pending = s.pending := rfl
@[simp] theorem State.modRunback_runback (f : Runback → Runback) : (s.modRunback f).runback = f s.runback := rfl

/-! ### modLimits -/

@[simp] theorem State.modLimits_resetAsserted (f : LimitTable → LimitTable) : (s.modLimits f).resetAsserted = s.resetAsserted := rfl
@[simp] theorem State.modLimits_identity (f : LimitTable → LimitTable) : (s.modLimits f).identity = s.identity := rfl
@[simp] theorem State.modLimits_ownStation (f : LimitTable → LimitTable) : (s.modLimits f).ownStation = s.ownStation := rfl
@[simp] theorem State.modLimits_ports (f : LimitTable → LimitTable) : (s.modLimits f).ports = s.ports := rfl
@[simp] theorem State.modLimits_matchTable (f : LimitTable → LimitTable) : (s.modLimits f).matchTable = s.matchTable := rfl
@[simp] theorem State.modLimits_reservation (f : LimitTable → LimitTable) : (s.modLimits f).reservation = s.reservation := rfl
@[simp] theorem State.modLimits_requests (f : LimitTable → LimitTable) : (s.modLimits f).requests = s.requests := rfl
@[simp] theorem State.modLimits_plantTime (f : LimitTable → LimitTable) : (s.modLimits f).plantTime = s.plantTime := rfl
@[simp] theorem State.modLimits_points (f : LimitTable → LimitTable) : (s.modLimits f).points = s.points := rfl
@[simp] theorem State.modLimits_channels (f : LimitTable → LimitTable) : (s.modLimits f).channels = s.channels := rfl
@[simp] theorem State.modLimits_plantBinding (f : LimitTable → LimitTable) : (s.modLimits f).plantBinding = s.plantBinding := rfl
@[simp] theorem State.modLimits_lineBinding (f : LimitTable → LimitTable) : (s.modLimits f).lineBinding = s.lineBinding := rfl
@[simp] theorem State.modLimits_unmapped (f : LimitTable → LimitTable) : (s.modLimits f).unmapped = s.unmapped := rfl
@[simp] theorem State.modLimits_malformed (f : LimitTable → LimitTable) : (s.modLimits f).malformed = s.malformed := rfl
@[simp] theorem State.modLimits_actuators (f : LimitTable → LimitTable) : (s.modLimits f).actuators = s.actuators := rfl
@[simp] theorem State.modLimits_withheld (f : LimitTable → LimitTable) : (s.modLimits f).withheld = s.withheld := rfl
@[simp] theorem State.modLimits_unguarded (f : LimitTable → LimitTable) : (s.modLimits f).unguarded = s.unguarded := rfl
@[simp] theorem State.modLimits_feed (f : LimitTable → LimitTable) : (s.modLimits f).feed = s.feed := rfl
@[simp] theorem State.modLimits_averager (f : LimitTable → LimitTable) : (s.modLimits f).averager = s.averager := rfl
@[simp] theorem State.modLimits_log (f : LimitTable → LimitTable) : (s.modLimits f).log = s.log := rfl
@[simp] theorem State.modLimits_nextEntry (f : LimitTable → LimitTable) : (s.modLimits f).nextEntry = s.nextEntry := rfl
@[simp] theorem State.modLimits_dispatch (f : LimitTable → LimitTable) : (s.modLimits f).dispatch = s.dispatch := rfl
@[simp] theorem State.modLimits_runback (f : LimitTable → LimitTable) : (s.modLimits f).runback = s.runback := rfl
@[simp] theorem State.modLimits_trip (f : LimitTable → LimitTable) : (s.modLimits f).trip = s.trip := rfl
@[simp] theorem State.modLimits_capture (f : LimitTable → LimitTable) : (s.modLimits f).capture = s.capture := rfl
@[simp] theorem State.modLimits_attention (f : LimitTable → LimitTable) : (s.modLimits f).attention = s.attention := rfl
@[simp] theorem State.modLimits_owedTick (f : LimitTable → LimitTable) : (s.modLimits f).owedTick = s.owedTick := rfl
@[simp] theorem State.modLimits_owedSweep (f : LimitTable → LimitTable) : (s.modLimits f).owedSweep = s.owedSweep := rfl
@[simp] theorem State.modLimits_sweepNext (f : LimitTable → LimitTable) : (s.modLimits f).sweepNext = s.sweepNext := rfl
@[simp] theorem State.modLimits_tripOffers (f : LimitTable → LimitTable) : (s.modLimits f).tripOffers = s.tripOffers := rfl
@[simp] theorem State.modLimits_nextMark (f : LimitTable → LimitTable) : (s.modLimits f).nextMark = s.nextMark := rfl
@[simp] theorem State.modLimits_script (f : LimitTable → LimitTable) : (s.modLimits f).script = s.script := rfl
@[simp] theorem State.modLimits_freeCount (f : LimitTable → LimitTable) : (s.modLimits f).freeCount = s.freeCount := rfl
@[simp] theorem State.modLimits_pending (f : LimitTable → LimitTable) : (s.modLimits f).pending = s.pending := rfl
@[simp] theorem State.modLimits_limits (f : LimitTable → LimitTable) : (s.modLimits f).limits = f s.limits := rfl

/-! ### modCapture -/

@[simp] theorem State.modCapture_resetAsserted (f : CaptureStore → CaptureStore) : (s.modCapture f).resetAsserted = s.resetAsserted := rfl
@[simp] theorem State.modCapture_identity (f : CaptureStore → CaptureStore) : (s.modCapture f).identity = s.identity := rfl
@[simp] theorem State.modCapture_ownStation (f : CaptureStore → CaptureStore) : (s.modCapture f).ownStation = s.ownStation := rfl
@[simp] theorem State.modCapture_ports (f : CaptureStore → CaptureStore) : (s.modCapture f).ports = s.ports := rfl
@[simp] theorem State.modCapture_matchTable (f : CaptureStore → CaptureStore) : (s.modCapture f).matchTable = s.matchTable := rfl
@[simp] theorem State.modCapture_reservation (f : CaptureStore → CaptureStore) : (s.modCapture f).reservation = s.reservation := rfl
@[simp] theorem State.modCapture_requests (f : CaptureStore → CaptureStore) : (s.modCapture f).requests = s.requests := rfl
@[simp] theorem State.modCapture_plantTime (f : CaptureStore → CaptureStore) : (s.modCapture f).plantTime = s.plantTime := rfl
@[simp] theorem State.modCapture_points (f : CaptureStore → CaptureStore) : (s.modCapture f).points = s.points := rfl
@[simp] theorem State.modCapture_channels (f : CaptureStore → CaptureStore) : (s.modCapture f).channels = s.channels := rfl
@[simp] theorem State.modCapture_plantBinding (f : CaptureStore → CaptureStore) : (s.modCapture f).plantBinding = s.plantBinding := rfl
@[simp] theorem State.modCapture_lineBinding (f : CaptureStore → CaptureStore) : (s.modCapture f).lineBinding = s.lineBinding := rfl
@[simp] theorem State.modCapture_unmapped (f : CaptureStore → CaptureStore) : (s.modCapture f).unmapped = s.unmapped := rfl
@[simp] theorem State.modCapture_malformed (f : CaptureStore → CaptureStore) : (s.modCapture f).malformed = s.malformed := rfl
@[simp] theorem State.modCapture_limits (f : CaptureStore → CaptureStore) : (s.modCapture f).limits = s.limits := rfl
@[simp] theorem State.modCapture_actuators (f : CaptureStore → CaptureStore) : (s.modCapture f).actuators = s.actuators := rfl
@[simp] theorem State.modCapture_withheld (f : CaptureStore → CaptureStore) : (s.modCapture f).withheld = s.withheld := rfl
@[simp] theorem State.modCapture_unguarded (f : CaptureStore → CaptureStore) : (s.modCapture f).unguarded = s.unguarded := rfl
@[simp] theorem State.modCapture_feed (f : CaptureStore → CaptureStore) : (s.modCapture f).feed = s.feed := rfl
@[simp] theorem State.modCapture_averager (f : CaptureStore → CaptureStore) : (s.modCapture f).averager = s.averager := rfl
@[simp] theorem State.modCapture_log (f : CaptureStore → CaptureStore) : (s.modCapture f).log = s.log := rfl
@[simp] theorem State.modCapture_nextEntry (f : CaptureStore → CaptureStore) : (s.modCapture f).nextEntry = s.nextEntry := rfl
@[simp] theorem State.modCapture_dispatch (f : CaptureStore → CaptureStore) : (s.modCapture f).dispatch = s.dispatch := rfl
@[simp] theorem State.modCapture_runback (f : CaptureStore → CaptureStore) : (s.modCapture f).runback = s.runback := rfl
@[simp] theorem State.modCapture_trip (f : CaptureStore → CaptureStore) : (s.modCapture f).trip = s.trip := rfl
@[simp] theorem State.modCapture_attention (f : CaptureStore → CaptureStore) : (s.modCapture f).attention = s.attention := rfl
@[simp] theorem State.modCapture_owedTick (f : CaptureStore → CaptureStore) : (s.modCapture f).owedTick = s.owedTick := rfl
@[simp] theorem State.modCapture_owedSweep (f : CaptureStore → CaptureStore) : (s.modCapture f).owedSweep = s.owedSweep := rfl
@[simp] theorem State.modCapture_sweepNext (f : CaptureStore → CaptureStore) : (s.modCapture f).sweepNext = s.sweepNext := rfl
@[simp] theorem State.modCapture_tripOffers (f : CaptureStore → CaptureStore) : (s.modCapture f).tripOffers = s.tripOffers := rfl
@[simp] theorem State.modCapture_nextMark (f : CaptureStore → CaptureStore) : (s.modCapture f).nextMark = s.nextMark := rfl
@[simp] theorem State.modCapture_script (f : CaptureStore → CaptureStore) : (s.modCapture f).script = s.script := rfl
@[simp] theorem State.modCapture_freeCount (f : CaptureStore → CaptureStore) : (s.modCapture f).freeCount = s.freeCount := rfl
@[simp] theorem State.modCapture_pending (f : CaptureStore → CaptureStore) : (s.modCapture f).pending = s.pending := rfl
@[simp] theorem State.modCapture_capture (f : CaptureStore → CaptureStore) : (s.modCapture f).capture = f s.capture := rfl

/-! ### setChannel -/

@[simp] theorem State.setChannel_resetAsserted (i : Nat) (c : Option Channel) : (s.setChannel i c).resetAsserted = s.resetAsserted := rfl
@[simp] theorem State.setChannel_identity (i : Nat) (c : Option Channel) : (s.setChannel i c).identity = s.identity := rfl
@[simp] theorem State.setChannel_ownStation (i : Nat) (c : Option Channel) : (s.setChannel i c).ownStation = s.ownStation := rfl
@[simp] theorem State.setChannel_ports (i : Nat) (c : Option Channel) : (s.setChannel i c).ports = s.ports := rfl
@[simp] theorem State.setChannel_matchTable (i : Nat) (c : Option Channel) : (s.setChannel i c).matchTable = s.matchTable := rfl
@[simp] theorem State.setChannel_reservation (i : Nat) (c : Option Channel) : (s.setChannel i c).reservation = s.reservation := rfl
@[simp] theorem State.setChannel_requests (i : Nat) (c : Option Channel) : (s.setChannel i c).requests = s.requests := rfl
@[simp] theorem State.setChannel_plantTime (i : Nat) (c : Option Channel) : (s.setChannel i c).plantTime = s.plantTime := rfl
@[simp] theorem State.setChannel_points (i : Nat) (c : Option Channel) : (s.setChannel i c).points = s.points := rfl
@[simp] theorem State.setChannel_plantBinding (i : Nat) (c : Option Channel) : (s.setChannel i c).plantBinding = s.plantBinding := rfl
@[simp] theorem State.setChannel_lineBinding (i : Nat) (c : Option Channel) : (s.setChannel i c).lineBinding = s.lineBinding := rfl
@[simp] theorem State.setChannel_unmapped (i : Nat) (c : Option Channel) : (s.setChannel i c).unmapped = s.unmapped := rfl
@[simp] theorem State.setChannel_malformed (i : Nat) (c : Option Channel) : (s.setChannel i c).malformed = s.malformed := rfl
@[simp] theorem State.setChannel_limits (i : Nat) (c : Option Channel) : (s.setChannel i c).limits = s.limits := rfl
@[simp] theorem State.setChannel_actuators (i : Nat) (c : Option Channel) : (s.setChannel i c).actuators = s.actuators := rfl
@[simp] theorem State.setChannel_withheld (i : Nat) (c : Option Channel) : (s.setChannel i c).withheld = s.withheld := rfl
@[simp] theorem State.setChannel_unguarded (i : Nat) (c : Option Channel) : (s.setChannel i c).unguarded = s.unguarded := rfl
@[simp] theorem State.setChannel_feed (i : Nat) (c : Option Channel) : (s.setChannel i c).feed = s.feed := rfl
@[simp] theorem State.setChannel_averager (i : Nat) (c : Option Channel) : (s.setChannel i c).averager = s.averager := rfl
@[simp] theorem State.setChannel_log (i : Nat) (c : Option Channel) : (s.setChannel i c).log = s.log := rfl
@[simp] theorem State.setChannel_nextEntry (i : Nat) (c : Option Channel) : (s.setChannel i c).nextEntry = s.nextEntry := rfl
@[simp] theorem State.setChannel_dispatch (i : Nat) (c : Option Channel) : (s.setChannel i c).dispatch = s.dispatch := rfl
@[simp] theorem State.setChannel_runback (i : Nat) (c : Option Channel) : (s.setChannel i c).runback = s.runback := rfl
@[simp] theorem State.setChannel_trip (i : Nat) (c : Option Channel) : (s.setChannel i c).trip = s.trip := rfl
@[simp] theorem State.setChannel_capture (i : Nat) (c : Option Channel) : (s.setChannel i c).capture = s.capture := rfl
@[simp] theorem State.setChannel_attention (i : Nat) (c : Option Channel) : (s.setChannel i c).attention = s.attention := rfl
@[simp] theorem State.setChannel_owedTick (i : Nat) (c : Option Channel) : (s.setChannel i c).owedTick = s.owedTick := rfl
@[simp] theorem State.setChannel_owedSweep (i : Nat) (c : Option Channel) : (s.setChannel i c).owedSweep = s.owedSweep := rfl
@[simp] theorem State.setChannel_sweepNext (i : Nat) (c : Option Channel) : (s.setChannel i c).sweepNext = s.sweepNext := rfl
@[simp] theorem State.setChannel_tripOffers (i : Nat) (c : Option Channel) : (s.setChannel i c).tripOffers = s.tripOffers := rfl
@[simp] theorem State.setChannel_nextMark (i : Nat) (c : Option Channel) : (s.setChannel i c).nextMark = s.nextMark := rfl
@[simp] theorem State.setChannel_script (i : Nat) (c : Option Channel) : (s.setChannel i c).script = s.script := rfl
@[simp] theorem State.setChannel_freeCount (i : Nat) (c : Option Channel) : (s.setChannel i c).freeCount = s.freeCount := rfl
@[simp] theorem State.setChannel_pending (i : Nat) (c : Option Channel) : (s.setChannel i c).pending = s.pending := rfl
@[simp] theorem State.setChannel_channels (i : Nat) (c : Option Channel) : (s.setChannel i c).channels = s.channels.set i c := rfl

/-! ### setActuator -/

@[simp] theorem State.setActuator_resetAsserted (i : Nat) (a : Option Actuator) : (s.setActuator i a).resetAsserted = s.resetAsserted := rfl
@[simp] theorem State.setActuator_identity (i : Nat) (a : Option Actuator) : (s.setActuator i a).identity = s.identity := rfl
@[simp] theorem State.setActuator_ownStation (i : Nat) (a : Option Actuator) : (s.setActuator i a).ownStation = s.ownStation := rfl
@[simp] theorem State.setActuator_ports (i : Nat) (a : Option Actuator) : (s.setActuator i a).ports = s.ports := rfl
@[simp] theorem State.setActuator_matchTable (i : Nat) (a : Option Actuator) : (s.setActuator i a).matchTable = s.matchTable := rfl
@[simp] theorem State.setActuator_reservation (i : Nat) (a : Option Actuator) : (s.setActuator i a).reservation = s.reservation := rfl
@[simp] theorem State.setActuator_requests (i : Nat) (a : Option Actuator) : (s.setActuator i a).requests = s.requests := rfl
@[simp] theorem State.setActuator_plantTime (i : Nat) (a : Option Actuator) : (s.setActuator i a).plantTime = s.plantTime := rfl
@[simp] theorem State.setActuator_points (i : Nat) (a : Option Actuator) : (s.setActuator i a).points = s.points := rfl
@[simp] theorem State.setActuator_channels (i : Nat) (a : Option Actuator) : (s.setActuator i a).channels = s.channels := rfl
@[simp] theorem State.setActuator_plantBinding (i : Nat) (a : Option Actuator) : (s.setActuator i a).plantBinding = s.plantBinding := rfl
@[simp] theorem State.setActuator_lineBinding (i : Nat) (a : Option Actuator) : (s.setActuator i a).lineBinding = s.lineBinding := rfl
@[simp] theorem State.setActuator_unmapped (i : Nat) (a : Option Actuator) : (s.setActuator i a).unmapped = s.unmapped := rfl
@[simp] theorem State.setActuator_malformed (i : Nat) (a : Option Actuator) : (s.setActuator i a).malformed = s.malformed := rfl
@[simp] theorem State.setActuator_limits (i : Nat) (a : Option Actuator) : (s.setActuator i a).limits = s.limits := rfl
@[simp] theorem State.setActuator_withheld (i : Nat) (a : Option Actuator) : (s.setActuator i a).withheld = s.withheld := rfl
@[simp] theorem State.setActuator_unguarded (i : Nat) (a : Option Actuator) : (s.setActuator i a).unguarded = s.unguarded := rfl
@[simp] theorem State.setActuator_feed (i : Nat) (a : Option Actuator) : (s.setActuator i a).feed = s.feed := rfl
@[simp] theorem State.setActuator_averager (i : Nat) (a : Option Actuator) : (s.setActuator i a).averager = s.averager := rfl
@[simp] theorem State.setActuator_log (i : Nat) (a : Option Actuator) : (s.setActuator i a).log = s.log := rfl
@[simp] theorem State.setActuator_nextEntry (i : Nat) (a : Option Actuator) : (s.setActuator i a).nextEntry = s.nextEntry := rfl
@[simp] theorem State.setActuator_dispatch (i : Nat) (a : Option Actuator) : (s.setActuator i a).dispatch = s.dispatch := rfl
@[simp] theorem State.setActuator_runback (i : Nat) (a : Option Actuator) : (s.setActuator i a).runback = s.runback := rfl
@[simp] theorem State.setActuator_trip (i : Nat) (a : Option Actuator) : (s.setActuator i a).trip = s.trip := rfl
@[simp] theorem State.setActuator_capture (i : Nat) (a : Option Actuator) : (s.setActuator i a).capture = s.capture := rfl
@[simp] theorem State.setActuator_attention (i : Nat) (a : Option Actuator) : (s.setActuator i a).attention = s.attention := rfl
@[simp] theorem State.setActuator_owedTick (i : Nat) (a : Option Actuator) : (s.setActuator i a).owedTick = s.owedTick := rfl
@[simp] theorem State.setActuator_owedSweep (i : Nat) (a : Option Actuator) : (s.setActuator i a).owedSweep = s.owedSweep := rfl
@[simp] theorem State.setActuator_sweepNext (i : Nat) (a : Option Actuator) : (s.setActuator i a).sweepNext = s.sweepNext := rfl
@[simp] theorem State.setActuator_tripOffers (i : Nat) (a : Option Actuator) : (s.setActuator i a).tripOffers = s.tripOffers := rfl
@[simp] theorem State.setActuator_nextMark (i : Nat) (a : Option Actuator) : (s.setActuator i a).nextMark = s.nextMark := rfl
@[simp] theorem State.setActuator_script (i : Nat) (a : Option Actuator) : (s.setActuator i a).script = s.script := rfl
@[simp] theorem State.setActuator_freeCount (i : Nat) (a : Option Actuator) : (s.setActuator i a).freeCount = s.freeCount := rfl
@[simp] theorem State.setActuator_pending (i : Nat) (a : Option Actuator) : (s.setActuator i a).pending = s.pending := rfl
@[simp] theorem State.setActuator_actuators (i : Nat) (a : Option Actuator) : (s.setActuator i a).actuators = s.actuators.set i a := rfl

/-! ### modCause -/

@[simp] theorem State.modCause_resetAsserted (c : Cause) (f : CauseRecord → CauseRecord) : (s.modCause c f).resetAsserted = s.resetAsserted := rfl
@[simp] theorem State.modCause_identity (c : Cause) (f : CauseRecord → CauseRecord) : (s.modCause c f).identity = s.identity := rfl
@[simp] theorem State.modCause_ownStation (c : Cause) (f : CauseRecord → CauseRecord) : (s.modCause c f).ownStation = s.ownStation := rfl
@[simp] theorem State.modCause_ports (c : Cause) (f : CauseRecord → CauseRecord) : (s.modCause c f).ports = s.ports := rfl
@[simp] theorem State.modCause_matchTable (c : Cause) (f : CauseRecord → CauseRecord) : (s.modCause c f).matchTable = s.matchTable := rfl
@[simp] theorem State.modCause_reservation (c : Cause) (f : CauseRecord → CauseRecord) : (s.modCause c f).reservation = s.reservation := rfl
@[simp] theorem State.modCause_requests (c : Cause) (f : CauseRecord → CauseRecord) : (s.modCause c f).requests = s.requests := rfl
@[simp] theorem State.modCause_plantTime (c : Cause) (f : CauseRecord → CauseRecord) : (s.modCause c f).plantTime = s.plantTime := rfl
@[simp] theorem State.modCause_points (c : Cause) (f : CauseRecord → CauseRecord) : (s.modCause c f).points = s.points := rfl
@[simp] theorem State.modCause_channels (c : Cause) (f : CauseRecord → CauseRecord) : (s.modCause c f).channels = s.channels := rfl
@[simp] theorem State.modCause_plantBinding (c : Cause) (f : CauseRecord → CauseRecord) : (s.modCause c f).plantBinding = s.plantBinding := rfl
@[simp] theorem State.modCause_lineBinding (c : Cause) (f : CauseRecord → CauseRecord) : (s.modCause c f).lineBinding = s.lineBinding := rfl
@[simp] theorem State.modCause_unmapped (c : Cause) (f : CauseRecord → CauseRecord) : (s.modCause c f).unmapped = s.unmapped := rfl
@[simp] theorem State.modCause_malformed (c : Cause) (f : CauseRecord → CauseRecord) : (s.modCause c f).malformed = s.malformed := rfl
@[simp] theorem State.modCause_limits (c : Cause) (f : CauseRecord → CauseRecord) : (s.modCause c f).limits = s.limits := rfl
@[simp] theorem State.modCause_actuators (c : Cause) (f : CauseRecord → CauseRecord) : (s.modCause c f).actuators = s.actuators := rfl
@[simp] theorem State.modCause_withheld (c : Cause) (f : CauseRecord → CauseRecord) : (s.modCause c f).withheld = s.withheld := rfl
@[simp] theorem State.modCause_unguarded (c : Cause) (f : CauseRecord → CauseRecord) : (s.modCause c f).unguarded = s.unguarded := rfl
@[simp] theorem State.modCause_feed (c : Cause) (f : CauseRecord → CauseRecord) : (s.modCause c f).feed = s.feed := rfl
@[simp] theorem State.modCause_averager (c : Cause) (f : CauseRecord → CauseRecord) : (s.modCause c f).averager = s.averager := rfl
@[simp] theorem State.modCause_log (c : Cause) (f : CauseRecord → CauseRecord) : (s.modCause c f).log = s.log := rfl
@[simp] theorem State.modCause_nextEntry (c : Cause) (f : CauseRecord → CauseRecord) : (s.modCause c f).nextEntry = s.nextEntry := rfl
@[simp] theorem State.modCause_dispatch (c : Cause) (f : CauseRecord → CauseRecord) : (s.modCause c f).dispatch = s.dispatch := rfl
@[simp] theorem State.modCause_runback (c : Cause) (f : CauseRecord → CauseRecord) : (s.modCause c f).runback = s.runback := rfl
@[simp] theorem State.modCause_trip (c : Cause) (f : CauseRecord → CauseRecord) : (s.modCause c f).trip = s.trip := rfl
@[simp] theorem State.modCause_capture (c : Cause) (f : CauseRecord → CauseRecord) : (s.modCause c f).capture = s.capture := rfl
@[simp] theorem State.modCause_owedTick (c : Cause) (f : CauseRecord → CauseRecord) : (s.modCause c f).owedTick = s.owedTick := rfl
@[simp] theorem State.modCause_owedSweep (c : Cause) (f : CauseRecord → CauseRecord) : (s.modCause c f).owedSweep = s.owedSweep := rfl
@[simp] theorem State.modCause_sweepNext (c : Cause) (f : CauseRecord → CauseRecord) : (s.modCause c f).sweepNext = s.sweepNext := rfl
@[simp] theorem State.modCause_tripOffers (c : Cause) (f : CauseRecord → CauseRecord) : (s.modCause c f).tripOffers = s.tripOffers := rfl
@[simp] theorem State.modCause_nextMark (c : Cause) (f : CauseRecord → CauseRecord) : (s.modCause c f).nextMark = s.nextMark := rfl
@[simp] theorem State.modCause_script (c : Cause) (f : CauseRecord → CauseRecord) : (s.modCause c f).script = s.script := rfl
@[simp] theorem State.modCause_freeCount (c : Cause) (f : CauseRecord → CauseRecord) : (s.modCause c f).freeCount = s.freeCount := rfl
@[simp] theorem State.modCause_pending (c : Cause) (f : CauseRecord → CauseRecord) : (s.modCause c f).pending = s.pending := rfl

/-! ### withEntry -/

@[simp] theorem State.withEntry_resetAsserted (i : LimitId) (e : LimitEntry) : (s.withEntry i e).resetAsserted = s.resetAsserted := rfl
@[simp] theorem State.withEntry_identity (i : LimitId) (e : LimitEntry) : (s.withEntry i e).identity = s.identity := rfl
@[simp] theorem State.withEntry_ownStation (i : LimitId) (e : LimitEntry) : (s.withEntry i e).ownStation = s.ownStation := rfl
@[simp] theorem State.withEntry_ports (i : LimitId) (e : LimitEntry) : (s.withEntry i e).ports = s.ports := rfl
@[simp] theorem State.withEntry_matchTable (i : LimitId) (e : LimitEntry) : (s.withEntry i e).matchTable = s.matchTable := rfl
@[simp] theorem State.withEntry_reservation (i : LimitId) (e : LimitEntry) : (s.withEntry i e).reservation = s.reservation := rfl
@[simp] theorem State.withEntry_requests (i : LimitId) (e : LimitEntry) : (s.withEntry i e).requests = s.requests := rfl
@[simp] theorem State.withEntry_plantTime (i : LimitId) (e : LimitEntry) : (s.withEntry i e).plantTime = s.plantTime := rfl
@[simp] theorem State.withEntry_points (i : LimitId) (e : LimitEntry) : (s.withEntry i e).points = s.points := rfl
@[simp] theorem State.withEntry_channels (i : LimitId) (e : LimitEntry) : (s.withEntry i e).channels = s.channels := rfl
@[simp] theorem State.withEntry_plantBinding (i : LimitId) (e : LimitEntry) : (s.withEntry i e).plantBinding = s.plantBinding := rfl
@[simp] theorem State.withEntry_lineBinding (i : LimitId) (e : LimitEntry) : (s.withEntry i e).lineBinding = s.lineBinding := rfl
@[simp] theorem State.withEntry_unmapped (i : LimitId) (e : LimitEntry) : (s.withEntry i e).unmapped = s.unmapped := rfl
@[simp] theorem State.withEntry_malformed (i : LimitId) (e : LimitEntry) : (s.withEntry i e).malformed = s.malformed := rfl
@[simp] theorem State.withEntry_actuators (i : LimitId) (e : LimitEntry) : (s.withEntry i e).actuators = s.actuators := rfl
@[simp] theorem State.withEntry_withheld (i : LimitId) (e : LimitEntry) : (s.withEntry i e).withheld = s.withheld := rfl
@[simp] theorem State.withEntry_unguarded (i : LimitId) (e : LimitEntry) : (s.withEntry i e).unguarded = s.unguarded := rfl
@[simp] theorem State.withEntry_feed (i : LimitId) (e : LimitEntry) : (s.withEntry i e).feed = s.feed := rfl
@[simp] theorem State.withEntry_averager (i : LimitId) (e : LimitEntry) : (s.withEntry i e).averager = s.averager := rfl
@[simp] theorem State.withEntry_log (i : LimitId) (e : LimitEntry) : (s.withEntry i e).log = s.log := rfl
@[simp] theorem State.withEntry_nextEntry (i : LimitId) (e : LimitEntry) : (s.withEntry i e).nextEntry = s.nextEntry := rfl
@[simp] theorem State.withEntry_dispatch (i : LimitId) (e : LimitEntry) : (s.withEntry i e).dispatch = s.dispatch := rfl
@[simp] theorem State.withEntry_runback (i : LimitId) (e : LimitEntry) : (s.withEntry i e).runback = s.runback := rfl
@[simp] theorem State.withEntry_trip (i : LimitId) (e : LimitEntry) : (s.withEntry i e).trip = s.trip := rfl
@[simp] theorem State.withEntry_capture (i : LimitId) (e : LimitEntry) : (s.withEntry i e).capture = s.capture := rfl
@[simp] theorem State.withEntry_attention (i : LimitId) (e : LimitEntry) : (s.withEntry i e).attention = s.attention := rfl
@[simp] theorem State.withEntry_owedTick (i : LimitId) (e : LimitEntry) : (s.withEntry i e).owedTick = s.owedTick := rfl
@[simp] theorem State.withEntry_owedSweep (i : LimitId) (e : LimitEntry) : (s.withEntry i e).owedSweep = s.owedSweep := rfl
@[simp] theorem State.withEntry_sweepNext (i : LimitId) (e : LimitEntry) : (s.withEntry i e).sweepNext = s.sweepNext := rfl
@[simp] theorem State.withEntry_tripOffers (i : LimitId) (e : LimitEntry) : (s.withEntry i e).tripOffers = s.tripOffers := rfl
@[simp] theorem State.withEntry_nextMark (i : LimitId) (e : LimitEntry) : (s.withEntry i e).nextMark = s.nextMark := rfl
@[simp] theorem State.withEntry_script (i : LimitId) (e : LimitEntry) : (s.withEntry i e).script = s.script := rfl
@[simp] theorem State.withEntry_freeCount (i : LimitId) (e : LimitEntry) : (s.withEntry i e).freeCount = s.freeCount := rfl
@[simp] theorem State.withEntry_pending (i : LimitId) (e : LimitEntry) : (s.withEntry i e).pending = s.pending := rfl

/-! ### beginExecution -/

@[simp] theorem State.beginExecution_resetAsserted (rest : List Request) : (s.beginExecution rest).resetAsserted = s.resetAsserted := rfl
@[simp] theorem State.beginExecution_identity (rest : List Request) : (s.beginExecution rest).identity = s.identity := rfl
@[simp] theorem State.beginExecution_ownStation (rest : List Request) : (s.beginExecution rest).ownStation = s.ownStation := rfl
@[simp] theorem State.beginExecution_ports (rest : List Request) : (s.beginExecution rest).ports = s.ports := rfl
@[simp] theorem State.beginExecution_matchTable (rest : List Request) : (s.beginExecution rest).matchTable = s.matchTable := rfl
@[simp] theorem State.beginExecution_plantTime (rest : List Request) : (s.beginExecution rest).plantTime = s.plantTime := rfl
@[simp] theorem State.beginExecution_points (rest : List Request) : (s.beginExecution rest).points = s.points := rfl
@[simp] theorem State.beginExecution_channels (rest : List Request) : (s.beginExecution rest).channels = s.channels := rfl
@[simp] theorem State.beginExecution_plantBinding (rest : List Request) : (s.beginExecution rest).plantBinding = s.plantBinding := rfl
@[simp] theorem State.beginExecution_lineBinding (rest : List Request) : (s.beginExecution rest).lineBinding = s.lineBinding := rfl
@[simp] theorem State.beginExecution_unmapped (rest : List Request) : (s.beginExecution rest).unmapped = s.unmapped := rfl
@[simp] theorem State.beginExecution_malformed (rest : List Request) : (s.beginExecution rest).malformed = s.malformed := rfl
@[simp] theorem State.beginExecution_limits (rest : List Request) : (s.beginExecution rest).limits = s.limits := rfl
@[simp] theorem State.beginExecution_actuators (rest : List Request) : (s.beginExecution rest).actuators = s.actuators := rfl
@[simp] theorem State.beginExecution_withheld (rest : List Request) : (s.beginExecution rest).withheld = s.withheld := rfl
@[simp] theorem State.beginExecution_unguarded (rest : List Request) : (s.beginExecution rest).unguarded = s.unguarded := rfl
@[simp] theorem State.beginExecution_feed (rest : List Request) : (s.beginExecution rest).feed = s.feed := rfl
@[simp] theorem State.beginExecution_averager (rest : List Request) : (s.beginExecution rest).averager = s.averager := rfl
@[simp] theorem State.beginExecution_log (rest : List Request) : (s.beginExecution rest).log = s.log := rfl
@[simp] theorem State.beginExecution_nextEntry (rest : List Request) : (s.beginExecution rest).nextEntry = s.nextEntry := rfl
@[simp] theorem State.beginExecution_dispatch (rest : List Request) : (s.beginExecution rest).dispatch = s.dispatch := rfl
@[simp] theorem State.beginExecution_runback (rest : List Request) : (s.beginExecution rest).runback = s.runback := rfl
@[simp] theorem State.beginExecution_trip (rest : List Request) : (s.beginExecution rest).trip = s.trip := rfl
@[simp] theorem State.beginExecution_capture (rest : List Request) : (s.beginExecution rest).capture = s.capture := rfl
@[simp] theorem State.beginExecution_attention (rest : List Request) : (s.beginExecution rest).attention = s.attention := rfl
@[simp] theorem State.beginExecution_owedTick (rest : List Request) : (s.beginExecution rest).owedTick = s.owedTick := rfl
@[simp] theorem State.beginExecution_owedSweep (rest : List Request) : (s.beginExecution rest).owedSweep = s.owedSweep := rfl
@[simp] theorem State.beginExecution_sweepNext (rest : List Request) : (s.beginExecution rest).sweepNext = s.sweepNext := rfl
@[simp] theorem State.beginExecution_tripOffers (rest : List Request) : (s.beginExecution rest).tripOffers = s.tripOffers := rfl
@[simp] theorem State.beginExecution_nextMark (rest : List Request) : (s.beginExecution rest).nextMark = s.nextMark := rfl
@[simp] theorem State.beginExecution_script (rest : List Request) : (s.beginExecution rest).script = s.script := rfl
@[simp] theorem State.beginExecution_freeCount (rest : List Request) : (s.beginExecution rest).freeCount = s.freeCount := rfl
@[simp] theorem State.beginExecution_pending (rest : List Request) : (s.beginExecution rest).pending = s.pending := rfl
@[simp] theorem State.beginExecution_requests (rest : List Request) : (s.beginExecution rest).requests = rest := rfl
@[simp] theorem State.beginExecution_reservation (rest : List Request) : (s.beginExecution rest).reservation = true := rfl

/-! ### Reading back through an update -/

@[simp] theorem State.port_modPort_self (p : PortId) (f : Port → Port) : (s.modPort p f).port p = f (s.port p) := by
  simp [State.port]

theorem State.port_modPort (p q : PortId) (f : Port → Port) :
    (s.modPort p f).port q = if q = p then f (s.port p) else s.port q := by
  simp only [State.port, State.modPort_ports, PerPort.get_set]

@[simp] theorem State.feedOf_modFeed_self (l : Line) (f : Feed → Feed) : (s.modFeed l f).feedOf l = f (s.feedOf l) := by
  simp [State.feedOf]

theorem State.feedOf_modFeed (l m : Line) (f : Feed → Feed) :
    (s.modFeed l f).feedOf m = if m = l then f (s.feedOf l) else s.feedOf m := by
  simp only [State.feedOf, State.modFeed_feed, PerLine.get_set]

@[simp] theorem State.tripOf_modTrip_self (l : Line) (f : TripUnit → TripUnit) :
    (s.modTrip l f).tripOf l = f (s.tripOf l) := by
  simp [State.tripOf]

theorem State.tripOf_modTrip (l m : Line) (f : TripUnit → TripUnit) :
    (s.modTrip l f).tripOf m = if m = l then f (s.tripOf l) else s.tripOf m := by
  simp only [State.tripOf, State.modTrip_trip, PerLine.get_set]

theorem State.averagerOf_modAverager (l m : Line) (f : Averager → Averager) :
    (s.modAverager l f).averagerOf m = if m = l then f (s.averagerOf l) else s.averagerOf m := by
  simp only [State.averagerOf, State.modAverager_averager, PerLine.get_set]

/-- The minutes used are no part of a pollutant's state. -/
@[simp] theorem State.minutes_modPollutant (l m : Line) (p : Pollutant) (f : PollutantState → PollutantState) :
    ((s.modPollutant l p f).averagerOf m).minutes = (s.averagerOf m).minutes := by
  cases l <;> cases m <;> rfl

theorem State.channel_setChannel (i j : Nat) (c : Option Channel) :
    (s.setChannel i c).channel j = if i = j ∧ i < s.channels.length then c else s.channel j := by
  simp only [State.channel, State.setChannel_channels, List.getD_eq_getElem?_getD, List.getElem?_set]
  by_cases h : i = j
  · subst h
    by_cases hi : i < s.channels.length <;> simp [hi]
  · simp [h]

theorem State.actuator_setActuator (i j : Nat) (a : Option Actuator) :
    (s.setActuator i a).actuator j = if i = j ∧ i < s.actuators.length then a else s.actuator j := by
  simp only [State.actuator, State.setActuator_actuators, List.getD_eq_getElem?_getD, List.getElem?_set]
  by_cases h : i = j
  · subst h
    by_cases hi : i < s.actuators.length <;> simp [hi]
  · simp [h]

/-- Effective limits depend on the limit table alone. -/
theorem State.limit_congr {s t : State} (h : s.limits = t.limits) (i : LimitId) : s.limit i = t.limit i := by
  simp only [State.limit, State.limitEntry, h]

/-- Effective values depend on the channels alone. -/
theorem State.effective_congr {s t : State} (h : s.channels = t.channels) (i : Nat) : s.effective i = t.effective i := by
  have hc : s.channel = t.channel := by
    funext j
    simp only [State.channel, h]
  have hl : s.isLive = t.isLive := by
    funext j
    simp only [State.isLive, hc]
  simp only [State.effective, State.supplier, hc, hl]

/-- Role values depend on the channels alone. -/
theorem State.roleValue_congr {s t : State} (h : s.channels = t.channels) (r : Option Nat) :
    s.roleValue r = t.roleValue r := by
  cases r with
  | none => rfl
  | some i => exact State.effective_congr h i

end Sys2Proof.Machine
end

