-- ==== Sys2Proof/Laws/Frames.lean ====
section
/-! SUPPORT. What the shared operations leave as it stands. An operation's lemma says that two states agree once the
fields it may change are erased from both; a field that is not erased is then equal by `congrArg`, and a lemma over fewer
erased fields gives one over more by `congrArg` of the larger erasure. -/

namespace Sys2Proof.Machine

/-! ### Erasures -/

/-- Without the attention unit, the ports and the frame mark: what setting a cause may change. -/
def State.lessNotices (s : State) : State :=
  { s with attention := Attention.initial, ports := ⟨Port.initial, Port.initial⟩, nextMark := 0 }

/-- Without the capture store as well. -/
def State.lessCapture (s : State) : State := { s.lessNotices with capture := CaptureStore.initial }

/-- Without the actuator table as well: what originating a command may change. -/
def State.lessOrigins (s : State) : State := { s.lessNotices with actuators := [] }

/-- Without the feed admission units as well. -/
def State.lessFeed (s : State) : State := { s.lessOrigins with feed := ⟨Feed.initial, Feed.initial⟩ }

/-- Without the dispatch unit as well as what an originated command may change. -/
def State.lessLoad (s : State) : State := { s.lessOrigins with dispatch := DispatchUnit.initial }

/-- Without feed, dispatch, runback, trip units and the supply of choices: what a trip may change. -/
def State.lessPlant (s : State) : State :=
  { s.lessFeed with
    dispatch := DispatchUnit.initial
    runback := Runback.initial
    trip := ⟨TripUnit.initial, TripUnit.initial⟩
    tripOffers := 0
    script := []
    freeCount := 0 }

/-! ### A lemma over fewer erased fields gives one over more -/

theorem lessCapture_of_notices {s t : State} (h : t.lessNotices = s.lessNotices) : t.lessCapture = s.lessCapture := by
  have h' : t.lessNotices.lessCapture = s.lessNotices.lessCapture := by rw [h]
  exact h'

theorem lessOrigins_of_notices {s t : State} (h : t.lessNotices = s.lessNotices) : t.lessOrigins = s.lessOrigins := by
  have h' : t.lessNotices.lessOrigins = s.lessNotices.lessOrigins := by rw [h]
  exact h'

theorem lessFeed_of_notices {s t : State} (h : t.lessNotices = s.lessNotices) : t.lessFeed = s.lessFeed := by
  have h' : t.lessNotices.lessFeed = s.lessNotices.lessFeed := by rw [h]
  exact h'

theorem lessFeed_of_origins {s t : State} (h : t.lessOrigins = s.lessOrigins) : t.lessFeed = s.lessFeed := by
  have h' : t.lessOrigins.lessFeed = s.lessOrigins.lessFeed := by rw [h]
  exact h'

theorem lessLoad_of_origins {s t : State} (h : t.lessOrigins = s.lessOrigins) : t.lessLoad = s.lessLoad := by
  have h' : t.lessOrigins.lessLoad = s.lessOrigins.lessLoad := by rw [h]
  exact h'

theorem lessPlant_of_load {s t : State} (h : t.lessLoad = s.lessLoad) : t.lessPlant = s.lessPlant := by
  have h' : t.lessLoad.lessPlant = s.lessLoad.lessPlant := by rw [h]
  exact h'

theorem lessPlant_of_feed {s t : State} (h : t.lessFeed = s.lessFeed) : t.lessPlant = s.lessPlant := by
  have h' : t.lessFeed.lessPlant = s.lessFeed.lessPlant := by rw [h]
  exact h'

theorem lessPlant_of_origins {s t : State} (h : t.lessOrigins = s.lessOrigins) : t.lessPlant = s.lessPlant := by
  have h' : t.lessOrigins.lessPlant = s.lessOrigins.lessPlant := by rw [h]
  exact h'

theorem lessPlant_of_notices {s t : State} (h : t.lessNotices = s.lessNotices) : t.lessPlant = s.lessPlant := by
  have h' : t.lessNotices.lessPlant = s.lessNotices.lessPlant := by rw [h]
  exact h'

/-! ### Notices and attention causes -/

theorem lessNotices_enterOrigin {s t : State} {p : PortId} {pr : Priority} {dest kind : Byte} {payload : List Byte}
    (h : s.enterOrigin p pr dest kind payload = some t) : t.lessNotices = s.lessNotices := by
  unfold State.enterOrigin at h
  split at h
  · cases h
    rfl
  · exact absurd h (by simp)

/-- A setting event changes the attention unit and nothing else. -/
theorem lessNotices_setCause (c : Cause) (l : Option Line) (d : Nat) (s : State) :
    (setCause c l d s).lessNotices = s.lessNotices := rfl

theorem lessNotices_originLoss (p : PortId) (s : State) : (originLoss p s).lessNotices = s.lessNotices := rfl

theorem lessNotices_offerNotice (s : State) (c : Cause) : (s.offerNotice c).1.lessNotices = s.lessNotices := by
  unfold State.offerNotice
  split
  · dsimp only
    split
    · split
      · rename_i h
        exact (lessNotices_enterOrigin h).trans rfl
      · rfl
    · rfl
  · rfl

theorem lessNotices_noticeLoss (s : State) : (noticeLoss s).lessNotices = s.lessNotices := by
  unfold noticeLoss
  dsimp only
  split
  · split
    · exact lessNotices_offerNotice (originLoss .supervisor s) .originLoss
    · exact lessNotices_offerNotice (originLoss .supervisor s) .originLoss
  · rfl

theorem lessNotices_noticeOccasion (c : Cause) (s : State) : (noticeOccasion c s).lessNotices = s.lessNotices := by
  unfold noticeOccasion
  dsimp only
  split
  · exact (lessNotices_noticeLoss _).trans (lessNotices_offerNotice s c)
  · exact lessNotices_offerNotice s c

/-- An erasure kept by every action of a list is kept by the list taken in turn. -/
theorem inTurn_keeps {α β : Type} (erase : State → β) (xs : List α) (act : α → State → State)
    (h : ∀ x s, erase (act x s) = erase s) (s : State) : erase (inTurn xs act s) = erase s := by
  unfold inTurn
  induction xs generalizing s with
  | nil => rfl
  | cons x rest ih => exact (ih (act x s)).trans (h x s)

/-- The NOTICEs of an event change the attention unit, the ports and the frame mark, and nothing else. -/
theorem lessNotices_noticesSince (before s : State) : (noticesSince before s).lessNotices = s.lessNotices :=
  inTurn_keeps State.lessNotices _ noticeOccasion lessNotices_noticeOccasion s

/-- An offered NOTICE enters a SUPERVISOR origin queue; the FIELD port stays as it stands (R180). -/
theorem field_offerNotice (s : State) (c : Cause) : (s.offerNotice c).1.port .field = s.port .field := by
  unfold State.offerNotice
  split
  · dsimp only
    split
    · split
      · rename_i h
        unfold State.enterOrigin at h
        split at h
        · cases h
          rfl
        · exact absurd h (by simp)
      · rfl
    · rfl
  · rfl

theorem field_noticeLoss (s : State) : (noticeLoss s).port .field = s.port .field := by
  unfold noticeLoss
  dsimp only
  split
  · split
    · exact field_offerNotice (originLoss .supervisor s) .originLoss
    · exact field_offerNotice (originLoss .supervisor s) .originLoss
  · rfl

theorem field_noticeOccasion (c : Cause) (s : State) : (noticeOccasion c s).port .field = s.port .field := by
  unfold noticeOccasion
  dsimp only
  split
  · exact (field_noticeLoss _).trans (field_offerNotice s c)
  · exact field_offerNotice s c

/-- The NOTICEs of an event leave the FIELD port as it stands. -/
theorem field_noticesSince (before s : State) : (noticesSince before s).port .field = s.port .field :=
  inTurn_keeps (fun s => s.port .field) _ noticeOccasion field_noticeOccasion s

/-- An event that sets no cause builds no NOTICE. -/
theorem noticesSince_of_unset {before s : State} (h : ∀ c, (s.cause c).status = true → (before.cause c).status = true) :
    noticesSince before s = s := by
  have hf : (Cause.all.filter fun c => !(before.cause c).status && (s.cause c).status) = [] := by
    rw [List.filter_eq_nil_iff]
    intro c _
    cases hs : (s.cause c).status
    · simp
    · simp [h c hs]
  unfold noticesSince
  rw [hf]
  rfl

/-- An event that leaves the attention unit as it stands builds no NOTICE. -/
theorem noticesSince_of_attention {before s : State} (h : s.attention = before.attention) :
    noticesSince before s = s :=
  noticesSince_of_unset fun c hs => by
    have hc : s.cause c = before.cause c := by
      unfold State.cause
      rw [h]
    rwa [hc] at hs

/-- A port error changes the attention unit, the ports and the frame mark, and nothing else. -/
theorem lessNotices_portError (k : PortErrorKind) (p : PortId) (s : State) :
    (portError k p s).lessNotices = s.lessNotices := lessNotices_setCause _ _ _ _

/-- An offer changes the capture store and what setting a cause may change. -/
theorem lessCapture_captureOffer (o : CaptureRecord) (s : State) : (captureOffer o s).lessCapture = s.lessCapture := by
  unfold captureOffer
  split
  · split
    · exact (lessCapture_of_notices (lessNotices_setCause _ _ _ _)).trans rfl
    · exact (lessCapture_of_notices (lessNotices_setCause _ _ _ _)).trans rfl
  · rfl

/-! ### Originated commands -/

theorem lessOrigins_setLast (s : State) (n : Nat) (v : Int) (m : Nat) : (s.setLast n v m).lessOrigins = s.lessOrigins := by
  unfold State.setLast
  split
  · split <;> rfl
  · rfl

theorem lessOrigins_commandEntered (s : State) (pr : Priority) (c : Command) (m : Nat) :
    (s.commandEntered pr c m).lessOrigins = s.lessOrigins := by
  unfold State.commandEntered
  cases c.verb <;> cases pr <;> first | rfl | exact lessOrigins_setLast s c.number c.value m

theorem lessOrigins_originateCommand (pr : Priority) (c : Command) (s : State) :
    (originateCommand pr c s).lessOrigins = s.lessOrigins := by
  unfold originateCommand
  split
  · exact lessOrigins_commandEntered _ pr c _
  · split
    · rename_i h
      exact (lessOrigins_commandEntered _ pr c _).trans (lessOrigins_of_notices (lessNotices_enterOrigin h))
    · exact lessOrigins_of_notices (lessNotices_originLoss _ s)

theorem lessOrigins_rewrite (s : State) (n : Nat) (b : Bound) : (s.rewrite n b).1.lessOrigins = s.lessOrigins := by
  unfold State.rewrite State.reportRewrites
  dsimp only
  split
  · split
    · split
      · split <;> rfl
      · rfl
    · rfl
  · rfl

/-- A command originated through the guard changes the ports, the actuators' last forwarded values, and what a loss may
change. -/
theorem lessOrigins_originate (e : Nat) (v : Verb) (x : Int) (pr : Priority) (s : State) :
    (originate e v x pr s).lessOrigins = s.lessOrigins := by
  unfold originate
  split
  · exact lessOrigins_originateCommand _ _ s
  · rfl

theorem lessOrigins_floorRise (e : Nat) (f : Int) (s : State) : (floorRise e f s).lessOrigins = s.lessOrigins := by
  unfold floorRise
  split
  · rename_i a _
    dsimp only
    split
    · split
      · exact (lessOrigins_originate _ _ _ _ _).trans (lessOrigins_rewrite s a.number (.lower f))
      · exact lessOrigins_rewrite s a.number (.lower f)
    · exact lessOrigins_rewrite s a.number (.lower f)
  · rfl

theorem lessOrigins_reagentBandChange (l : Line) (r : Reagent) (b b' : Fin 3) (s : State) :
    (reagentBandChange l r b b' s).lessOrigins = s.lessOrigins := by
  unfold reagentBandChange
  apply inTurn_keeps
  intro i s
  split
  · split
    · exact lessOrigins_floorRise _ _ _
    · rfl
  · rfl

theorem lessOrigins_turbineEnforce (n : Nat) (pr : Priority) (s : State) :
    (turbineEnforce n pr s).lessOrigins = s.lessOrigins := by
  unfold turbineEnforce
  split
  · rename_i a _
    dsimp only
    split
    · split
      · split
        · exact (lessOrigins_originate _ _ _ _ _).trans (lessOrigins_rewrite s a.number (.upper n))
        · exact lessOrigins_rewrite s a.number (.upper n)
      · split
        · exact (lessOrigins_originate _ _ _ _ _).trans (lessOrigins_rewrite s a.number (.upper n))
        · exact lessOrigins_rewrite s a.number (.upper n)
    · exact lessOrigins_rewrite s a.number (.upper n)
  · rfl

theorem lessOrigins_followAllowed (s : State) : (followAllowed s).lessOrigins = s.lessOrigins := by
  unfold followAllowed
  split
  · split
    · rfl
    · exact lessOrigins_originate _ _ _ _ s
  · rfl

/-! ### Feed admission -/

theorem lessFeed_abortStroke (l : Line) (s : State) : (abortStroke l s).lessFeed = s.lessFeed := by
  unfold abortStroke
  split
  · rename_i ram _ _
    exact Eq.trans (b := (originate ram .stop 0 .urgent s).lessFeed) rfl
      (lessFeed_of_origins (lessOrigins_originate _ _ _ _ s))
  · rfl

/-- Adding a hold cause changes the feed admission units and what an originated STOP may change. -/
theorem lessFeed_addHold (l : Line) (c : HoldCause) (s : State) : (addHold l c s).lessFeed = s.lessFeed := by
  unfold addHold
  split
  · rfl
  · exact lessFeed_abortStroke l _

theorem lessFeed_release (l : Line) (s : State) : (release l s).lessFeed = s.lessFeed := by
  unfold release
  split
  · rename_i head rest k _ _
    dsimp only
    exact Eq.trans (b := (originate ((s.rams l).getD k 0) .stroke head.length .routine
        (s.modFeed l fun f =>
          { f with
            rotation := (k + 1) % (s.rams l).length
            queue := rest
            bed := f.bed + s.strokeCharge l head.length })).lessFeed) rfl
      ((lessFeed_of_origins (lessOrigins_originate _ _ _ _ _)).trans rfl)
  · rfl

/-- A release check changes the feed admission units and what an originated STROKE may change. -/
theorem lessFeed_releaseCheck (l : Line) (s : State) : (releaseCheck l s).lessFeed = s.lessFeed := by
  unfold releaseCheck
  split
  · exact lessFeed_release l s
  · rfl

/-- Removing a hold cause changes no more than a release check. -/
theorem lessFeed_removeHold (l : Line) (c : HoldCause) (s : State) : (removeHold l c s).lessFeed = s.lessFeed := by
  unfold removeHold
  split
  · exact lessFeed_releaseCheck l _
  · rfl

theorem lessFeed_evalFurnace (l : Line) (s : State) : (evalFurnace l s).lessFeed = s.lessFeed := by
  have cold : ∀ s : State, (if (s.feedOf l).holds.furnaceCold then s
      else
        match ((addHold l .furnaceCold s).binding l).auxBurner with
        | some e => if 0 < ((addHold l .furnaceCold s).feedOf l).bed
            then originate e .set 1 .routine (addHold l .furnaceCold s) else addHold l .furnaceCold s
        | none => addHold l .furnaceCold s).lessFeed = s.lessFeed := by
    intro s
    split
    · rfl
    · split
      · split
        · exact (lessFeed_of_origins (lessOrigins_originate _ _ _ _ _)).trans (lessFeed_addHold l _ s)
        · exact lessFeed_addHold l _ s
      · exact lessFeed_addHold l _ s
  unfold evalFurnace
  dsimp only
  split
  · exact cold s
  · split
    · exact cold s
    · split
      · exact lessFeed_removeHold l _ s
      · rfl

theorem lessFeed_evalNoRam (l : Line) (s : State) : (evalNoRam l s).lessFeed = s.lessFeed := by
  unfold evalNoRam
  split
  · exact lessFeed_removeHold l _ s
  · exact lessFeed_addHold l _ s

theorem lessFeed_ramChange (l : Line) (s : State) : (ramChange l s).lessFeed = s.lessFeed :=
  (lessFeed_releaseCheck l _).trans (lessFeed_evalNoRam l s)

theorem lessFeed_sinkChange (l : Line) (s : State) : (sinkChange l s).lessFeed = s.lessFeed := by
  unfold sinkChange
  split
  · exact lessFeed_addHold l _ s
  · exact (lessFeed_releaseCheck l _).trans (lessFeed_removeHold l _ s)

theorem lessFeed_postReason (l : Line) (r : EmissionReason) (s : State) : (postReason l r s).lessFeed = s.lessFeed := by
  unfold postReason
  dsimp only
  split
  · exact (lessFeed_of_notices (lessNotices_setCause _ _ _ _)).trans (lessFeed_addHold l _ _)
  · rfl

theorem lessFeed_postBudget (l : Line) (s : State) : (postBudget l s).lessFeed = s.lessFeed := by
  unfold postBudget
  split
  · exact lessFeed_postReason l _ s
  · rfl

theorem lessFeed_strokeTimesOut (l : Line) (e : Nat) (s : State) : (strokeTimesOut l e s).lessFeed = s.lessFeed := by
  unfold strokeTimesOut
  dsimp only
  split
  · split
    · exact (lessFeed_of_notices (lessNotices_setCause _ _ _ _)).trans
        ((lessFeed_of_origins (lessOrigins_originate _ _ _ _ _)).trans (lessFeed_ramChange l _))
    · rfl
  · rfl

theorem lessFeed_engineCount (l : Line) (s : State) : (engineCount l s).lessFeed = s.lessFeed := by
  unfold engineCount
  split
  · rfl
  · dsimp only
    split
    · exact lessFeed_strokeTimesOut l _ _
    · rfl
  · rfl

/-- A second tick at a feed admission unit changes no block but it and what its frames may change. -/
theorem lessFeed_feedTick (l : Line) (s : State) : (feedTick l s).lessFeed = s.lessFeed :=
  (lessFeed_releaseCheck l _).trans (lessFeed_engineCount l _)

/-! ### Dispatch and runback -/

/-- A change of the allowed load changes the dispatch unit and what an originated setpoint may change. -/
theorem lessLoad_recomputeAllowed (pr : Priority) (s : State) : (recomputeAllowed pr s).lessLoad = s.lessLoad := by
  have follow : ∀ t : State, (if t.dispatch.follow then followAllowed t else t).lessLoad = t.lessLoad := by
    intro t
    split
    · exact lessLoad_of_origins (lessOrigins_followAllowed t)
    · rfl
  unfold recomputeAllowed
  dsimp only
  split
  · rfl
  · split
    · exact ((follow _).trans (lessLoad_of_origins (lessOrigins_turbineEnforce _ _ _))).trans rfl
    · exact follow _

theorem lessLoad_capPosted (c : Option Nat) (s : State) : (capPosted c s).lessLoad = s.lessLoad :=
  lessLoad_recomputeAllowed _ _

theorem lessLoad_dispatchSteam (s : State) : (dispatchSteam s).lessLoad = s.lessLoad := lessLoad_recomputeAllowed _ _

theorem lessLoad_activate (s : State) : (activate s).lessLoad = s.lessLoad := by
  unfold activate
  dsimp only
  split <;> rfl

theorem lessLoad_dispatchTick (s : State) : (dispatchTick s).lessLoad = s.lessLoad :=
  (lessLoad_recomputeAllowed _ _).trans (lessLoad_activate s)

theorem lessLoad_dispatchTimeSet (s : State) : (dispatchTimeSet s).lessLoad = s.lessLoad :=
  (lessLoad_recomputeAllowed _ _).trans (lessLoad_activate s)

/-- Taking a posted cap changes the dispatch unit and what an originated setpoint may change. -/
theorem lessLoad_capTaken (s : State) : (capTaken s).lessLoad = s.lessLoad := by
  unfold capTaken
  split
  · rfl
  · exact lessLoad_capPosted _ s

theorem lessPlant_trigger (s : State) : (trigger s).lessPlant = s.lessPlant := by
  have h : (trigger s).lessPlant = (capTaken s).lessPlant := rfl
  exact h.trans (lessPlant_of_load (lessLoad_capTaken s))

/-- A runback condition changes the runback unit and what a posted cap may change. -/
theorem lessPlant_condition (c : Condition) (b : Bool) (s : State) : (condition c b s).lessPlant = s.lessPlant := by
  unfold condition
  split
  · rfl
  · dsimp only
    split
    · exact lessPlant_trigger _
    · split <;> rfl

/-! ### Orders left open -/

theorem lessPlant_choose (s : State) (n : Nat) : (s.choose n).2.lessPlant = s.lessPlant := by
  unfold State.choose
  split
  · rfl
  · split <;> rfl

/-- What a choice keeps and every waiting action keeps, their interleaving keeps, whatever the choices are. -/
theorem interleave_invariant (P : State → Prop) (hc : ∀ s n, P s → P (s.choose n).2) (fuel : Nat) :
    ∀ (agents : List (List (State → State))) (s : State),
      (∀ q ∈ agents, ∀ act ∈ q, ∀ s, P s → P (act s)) → P s → P (interleave fuel agents s) := by
  induction fuel with
  | zero => exact fun _ _ _ hs => hs
  | succ fuel ih =>
    intro agents s ha hs
    unfold interleave
    dsimp only
    have hw : ∀ q ∈ agents.filter fun q => !q.isEmpty, ∀ act ∈ q, ∀ s, P s → P (act s) := fun q hq =>
      ha q (List.mem_of_mem_filter hq)
    split
    · rename_i act rest hk
      have hmem := List.mem_of_getElem? hk
      apply ih
      · intro q hq
        rcases List.mem_or_eq_of_mem_set hq with h | h
        · exact hw q h
        · subst h
          exact fun a ha' => hw _ hmem a (List.mem_cons_of_mem _ ha')
      · exact hw _ hmem act List.mem_cons_self _ (hc s _ hs)
    · exact hc s _ hs

/-- What every action keeps, actions taken in any order keep. -/
theorem inAnyOrder_invariant (P : State → Prop) (hc : ∀ s n, P s → P (s.choose n).2) (acts : List (State → State))
    (ha : ∀ act ∈ acts, ∀ s, P s → P (act s)) (s : State) (hs : P s) : P (inAnyOrder acts s) := by
  unfold inAnyOrder
  apply interleave_invariant P hc
  · intro q hq act hact
    obtain ⟨a, ha', rfl⟩ := List.mem_map.mp hq
    rw [List.mem_singleton] at hact
    subst hact
    exact ha act ha'
  · exact hs

theorem deliver_invariant (P : State → Prop) (hc : ∀ s n, P s → P (s.choose n).2) (queues : List (List (State → State)))
    (ha : ∀ q ∈ queues, ∀ act ∈ q, ∀ s, P s → P (act s)) (s : State) (hs : P s) : P (deliver queues s) :=
  interleave_invariant P hc _ queues s ha hs

end Sys2Proof.Machine
end

