-- ==== Sys2Proof/Laws/Ops.lean ====
section
/-! SUPPORT. What the shared operations do: counts, clamps, choices, the two outcomes of entering a queue, holds, and the
execution of a request. -/

namespace Sys2Proof.Machine

/-! ### Counts and clamps -/

theorem satSucc_le {top n : Nat} (h : n ≤ top) : satSucc top n ≤ top := by
  unfold satSucc
  split <;> omega

theorem satSucc_eq_min {top n : Nat} (h : n ≤ top) : satSucc top n = min (n + 1) top := by
  unfold satSucc
  split <;> omega

/-- A clamped value lies between its bounds, where these are in order. -/
theorem clamp_between {lo hi v : Int} (h : lo ≤ hi) : lo ≤ clamp lo hi v ∧ clamp lo hi v ≤ hi := by
  unfold clamp
  split_ifs <;> constructor <;> omega

/-- A value within its bounds is left by the clamp. -/
theorem clamp_of_between {lo hi v : Int} (h1 : lo ≤ v) (h2 : v ≤ hi) : clamp lo hi v = v := by
  unfold clamp
  split_ifs <;> omega

/-- A choice is one of those there are. -/
theorem choose_lt (s : State) {n : Nat} (h : 0 < n) : (s.choose n).1 < n := by
  unfold State.choose
  split
  · exact h
  · split
    · exact Nat.mod_lt _ h
    · exact Nat.mod_lt _ h

/-! ### Queues -/

/-- An originated frame enters exactly while its queue has a free slot (R28, R31). -/
theorem enterOrigin_isSome (s : State) (p : PortId) (pr : Priority) (dest kind : Byte) (payload : List Byte) :
    (s.enterOrigin p pr dest kind payload).isSome = true ↔ ((s.port p).origin pr).length < s.originCapacity p pr := by
  unfold State.enterOrigin
  split <;> simp_all

/-- A frame enters its transit queue exactly while that holds fewer than 32 (R26). -/
theorem enterTransit_entered (s : State) (p : PortId) (f : Frame) :
    (s.enterTransit p f).2 = true ↔ (s.port (PortId.opposite p)).transit.length < 32 := by
  unfold State.enterTransit
  dsimp only
  split
  · split <;> simp_all
  · simp_all

/-- A frame that meets a full transit queue changes nothing there (R26). -/
theorem enterTransit_lost {s : State} {p : PortId} {f : Frame} (h : (s.enterTransit p f).2 = false) :
    (s.enterTransit p f).1 = s := by
  unfold State.enterTransit at h ⊢
  dsimp only at h ⊢
  split at h
  · split at h <;> exact absurd h (by simp)
  · rename_i hn
    rw [if_neg hn]

/-- A command coalesces into the first waiting command for its actuator; every other frame stays (R29). -/
theorem coalesceInto_first {c : Command} {w : Waiting} (before after : List Waiting)
    (hb : ∀ x ∈ before, x.commands c.number = false) (hw : w.commands c.number = true) :
    coalesceInto c (before ++ w :: after) =
      before ++ { w with frame := { w.frame with payload := c.bytes } } :: after := by
  induction before with
  | nil => simp [coalesceInto, hw]
  | cons x rest ih =>
    have hx : x.commands c.number = false := hb x (by simp)
    simp [coalesceInto, hx, ih fun y hy => hb y (by simp [hy])]

/-- A command that finds its queue full and no command to coalesce with is lost (R31). -/
theorem originateCommand_lost {pr : Priority} {c : Command} {s : State}
    (hn : ∀ w ∈ (s.port .field).origin pr, w.commands c.number = false)
    (hf : s.originCapacity .field pr ≤ ((s.port .field).origin pr).length) :
    originateCommand pr c s = originLoss .field s := by
  have h : ((s.port .field).origin pr).find? (·.commands c.number) = none := by
    rw [List.find?_eq_none]
    intro w hw
    simp [hn w hw]
  unfold originateCommand State.enterOrigin
  rw [h, if_neg (Nat.not_lt.mpr hf)]

/-! ### The capture store's offers (R174) -/

/-- An offer from a DISARMED source changes nothing. -/
theorem captureOffer_of_disarmed {o : CaptureRecord} {s : State} (h : s.armed o.source = false) :
    captureOffer o s = s := by
  unfold captureOffer
  rw [if_neg (by simp [h])]

/-- An offer from an ARMED source with a slot free is stored there, and the source becomes DISARMED. -/
theorem captureOffer_of_free {o : CaptureRecord} {s : State} {i : Nat} (h : s.armed o.source = true)
    (hf : s.freeSlot = some i) :
    captureOffer o s = setCause .captureTaken none i (s.modCapture fun c =>
      { c with slots := c.slots.set i (some o), armed := c.armed.set o.source.code false }) := by
  unfold captureOffer
  rw [if_pos h, hf]

/-- An offer from an ARMED source with no slot free is missed. -/
theorem captureOffer_of_full {o : CaptureRecord} {s : State} (h : s.armed o.source = true) (hf : s.freeSlot = none) :
    captureOffer o s = setCause .captureMissed none o.source.code (s.modCapture fun c =>
      { c with missed := satSucc 65535 c.missed }) := by
  unfold captureOffer
  rw [if_pos h, hf]

/-! ### Holds -/

/-- With no stroke in flight there is none to abort (R106). -/
theorem abortStroke_of_idle {l : Line} {s : State} (h : ∀ ram target, (s.feedOf l).engine ≠ .inStroke ram target) :
    abortStroke l s = s := by
  unfold abortStroke
  split
  · rename_i ram target he
    exact absurd he (h ram target)
  · rfl

/-- A present cause is not added again (R108). -/
theorem addHold_of_held {l : Line} {c : HoldCause} {s : State} (h : (s.feedOf l).holds.get c = true) :
    addHold l c s = s := by
  unfold addHold
  rw [if_pos h]

/-- An absent cause is not removed (R108). -/
theorem removeHold_of_absent {l : Line} {c : HoldCause} {s : State} (h : (s.feedOf l).holds.get c = false) :
    removeHold l c s = s := by
  unfold removeHold
  rw [if_neg (by simp [h])]

/-! ### The runback cap -/

/-- A cap that the dispatch unit keeps already is taken without effect (R162). -/
theorem capTaken_of_kept {s : State} (h : s.dispatch.cap = s.runback.cap) : capTaken s = s := by
  unfold capTaken
  rw [if_pos h]

/-- A condition that stands as evaluated changes nothing (R160). -/
theorem condition_of_unchanged {c : Condition} {now : Bool} {s : State} (h : s.runback.holds c = now) :
    condition c now s = s := by
  unfold condition
  rw [if_pos h]

/-! ### Release checks -/

/-- A ram chosen by the seek is an entry of the list whose record is there and IN_SERVICE (R101). -/
theorem seekRam_inService {s : State} {l : Line} {start k : Nat} (h : s.seekRam l start = some k) :
    ∃ e, (s.rams l)[k]? = some e ∧ s.inService e = true := by
  unfold State.seekRam at h
  dsimp only at h
  have hk := List.find?_some h
  split at hk
  · rename_i e he
    exact ⟨e, he, hk⟩
  · exact absurd hk (by simp)

/-- An entry whose ram is IN_SERVICE holds a record. -/
theorem actuator_of_inService {s : State} {e : Nat} (h : s.inService e = true) :
    ∃ a, s.actuator e = some a ∧ a.ram = .inService := by
  unfold State.inService at h
  split at h
  · rename_i a ha
    exact ⟨a, ha, by simpa using h⟩
  · exact absurd h (by simp)

/-- A check that finds a condition of R100 unmet releases nothing. -/
theorem releaseCheck_of_not_mayRelease {l : Line} {s : State} (h : s.mayRelease l = false) : releaseCheck l s = s := by
  unfold releaseCheck
  rw [if_neg (by simp [h])]

/-! ### Executions -/

/-- A ready request executes: it leaves the queue, its body runs under the reservation, the NOTICEs of the
causes it set are built, and its REPLY is placed (R186). -/
theorem serve_of_ready {row : Instr} {r : Request} {rest : List Request} {s : State} (h : Ready row r rest s)
    (body : Request → State → Answer) :
    serve row body s = placeReply r ((body r (s.beginExecution rest)).noticed (s.beginExecution rest)) := by
  obtain ⟨h1, h2, h3, h4⟩ := h
  have he : s.executable row = some (r, rest) := by
    unfold State.executable
    rw [h2]
    simp [State.replySpace, h1, h3, h4]
  unfold serve
  rw [he]

/-- Where the head of the queue cannot execute as the row named, nothing happens (log 4). -/
theorem serve_of_not_executable {row : Instr} {s : State} (h : s.executable row = none)
    (body : Request → State → Answer) : serve row body s = s := by
  unfold serve
  rw [h]

/-- The REPLY placed on a state whose request queue the execution left as it was. -/
theorem placeReply_eq_withReply (r : Request) (a : Answer) :
    placeReply r a = withReply r a.after.requests a.status a.data a.after := rfl

/-- An answer that leaves the attention unit as it stands is placed without any NOTICE before it. -/
theorem noticed_of_attention {a : Answer} {before : State} (h : a.after.attention = before.attention) :
    a.noticed before = a := by
  unfold Answer.noticed
  rw [noticesSince_of_attention h]

/-- An answer on the state at the beginning of the execution: only the queue, the REPLY and the mark differ. -/
theorem placeReply_beginExecution (r : Request) (rest : List Request) (st : Status) (data : List Byte) (s : State) :
    placeReply r ⟨st, data, s.beginExecution rest⟩ = withReply r rest st data s := rfl

end Sys2Proof.Machine
end

