-- ==== Sys2Proof/Tests/Slice0.lean ====
section
/-! SUPPORT. Small checks of the model: ill-formed commands that are refused, the spec's own numbers, and for every
statement with hypotheses a state and operands that meet them. -/

namespace Sys2Proof.Tests
open Sys2Proof Sys2Proof.Machine

/-! ### Ill-formed commands -/

theorem test_arrival_without_bytes_is_ill_formed : (Instr.frameArrival .field []).wellFormed = false := by decide

theorem test_tick_twice_at_a_unit_is_ill_formed : (Instr.secondTick [.dispatch, .dispatch]).wellFormed = false := by
  decide

theorem test_sweep_twice_at_a_unit_is_ill_formed : (Instr.sweep [.channels, .channels]).wellFormed = false := by decide

theorem test_channel_96_is_ill_formed : (Instr.channelLost 96).wellFormed = false := by decide

/-! ### Numbers of the spec -/

/-- The check value of R3 over the bytes 0x31 to 0x39. -/
theorem test_crc_of_digits : crc ((List.range 9).map fun i => u8 (0x31 + i)) = 0x29B1#16 := by decide +kernel

/-- The identity of the example under R12. -/
def identityBytes : List Byte := [0x3C, 0x07, 0x19, 0xE2]

/-- The argument area of the example under R12. -/
def exampleArea : List Byte :=
  [0x01, 0xA5, 0xA5, 0xA5, 0xA5, 0x00, 0xA5, 0xA5, 0xA5, 0xA5] ++ identityBytes ++ identityBytes ++ identityBytes

theorem test_confirm_block_found : findConfirm (identityTriple 0x3C0719E2#32) exampleArea 0 = true := by decide +kernel

theorem test_confirm_block_cut_short :
    findConfirm (identityTriple 0x3C0719E2#32) (exampleArea.take 21) 0 = false := by decide +kernel

/-- The air damper of the example under R84. -/
def damper (last : Int) : Actuator := ⟨1, .air, some .one, 0, 1000, 50, some last, none, none, .inService, 0, 0, 0⟩

theorem test_damper_steps : (damper 400).rangeAndStep 1200 = 450 ∧ (damper 450).rangeAndStep 1200 = 500 ∧
    (damper 500).rangeAndStep 480 = 480 ∧ (damper 480).rangeAndStep (-20) = 430 := by decide

/-! ### States and requests for the witnesses -/

/-- The part after POWER_ON, with the identity of the example and both links UP. -/
def base : State :=
  { State.reset with
    identity := 0x3C0719E2#32
    ports := ⟨{ Port.initial with linkUp := true }, { Port.initial with linkUp := true }⟩ }

/-- A request with a code and an argument area. -/
def asked (code : Nat) (args : List Byte) : Request := ⟨⟨250, 5, 0x40, 7, 0, u8 code :: args⟩, 0⟩

/-- A state with that request alone in the queue. -/
def waiting (code : Nat) (args : List Byte) (s : State) : State := { s with requests := [asked code args] }

/-- A confirm block. -/
def block : List Byte := [0xA5, 0xA5, 0xA5, 0xA5] ++ identityBytes ++ identityBytes ++ identityBytes

theorem ready_of_row {row : Instr} {code : Nat} {args : List Byte} {s : State}
    (h : (waiting code args s).rowOf (asked code args) = row) (ha : s.resetAsserted = false)
    (hr : (s.port .supervisor).routine.length < 16) :
    Ready row (asked code args) [] (waiting code args s) := ⟨ha, rfl, hr, h⟩

/-- A LIVE channel. -/
def liveChannel (cls : ChannelClass) (v : Int) : Channel := ⟨7, cls, some .one, 1, 8, none, .live, some v, .good, 0, true, 0, 0⟩

/-- Channel 0 holds a record, as point 7. -/
def withChannel (c : Channel) (s : State) : State :=
  { s with channels := some c :: List.replicate 95 none, points := [(7, 0)] }

/-- Entry 0 holds a record. -/
def withEntry0 (a : Actuator) (s : State) : State := { s with actuators := some a :: List.replicate 47 none }

/-- A ram with a position channel. -/
def ram : Actuator := ⟨51, .feedRam, some .one, 0, 0, 0, none, none, some 0, .inService, 0, 0, 0⟩

/-- The part in OPERATE. -/
def operating (s : State) : State := { s with limits := { s.limits with mode := .operate } }

/-- A waiting frame. -/
def frame0 : Waiting := ⟨0, ⟨9, 8, 0x10, 0, 0, []⟩⟩

/-- The part with its SUPERVISOR port changed. -/
def withSup (f : Port → Port) (s : State) : State := s.modPort .supervisor f

/-- The part of the example under R152, at the moment line 2's drum (channel 2) has fallen below DRUM_LOW: the turbine
ONLINE, an allowed load of 361, line 1 contributing 248, the runback unit IDLE with depth 100 and floor 50. -/
def drumFallen : State :=
  let live (cls : ChannelClass) (v : Int) : Option Channel := some (liveChannel cls v)
  { base with
    channels := [live .drumLevel 0, live .steamFlow 248, live .drumLevel (-180), live .steamFlow 240, live .status 1]
    plantBinding := ⟨some 4, none, none⟩
    lineBinding :=
      ⟨{ LineBinding.initial with drumLevel := some 0, steamFlow := some 1 },
       { LineBinding.initial with drumLevel := some 2, steamFlow := some 3 }⟩
    limits := { base.limits with
      entries := ((((base.limits.entries.set 9 ⟨-150, none⟩).set 33 ⟨-150, none⟩).set 48 ⟨500, none⟩).set 49
        ⟨1000, none⟩) }
    dispatch := { base.dispatch with ramped := 361 * 60, steamLoad := 488, allowed := 361, online := true, cap := none }
    runback := ⟨⟨false, false⟩, ⟨false, false⟩, .idle, none, 0, false, 100, 50, 60, 1⟩ }

/-- One drum reading in each order of handling: dispatch first, runback first, and the cap last (R150). -/
theorem test_drum_reading_in_each_order :
    (capTaken (runbackDrum .two (dispatchSteam drumFallen))).dispatch.allowed = 148 ∧
    (capTaken (runbackDrum .two drumFallen)).dispatch.allowed = 261 ∧
    (dispatchSteam (capTaken (runbackDrum .two drumFallen))).dispatch.allowed = 248 ∧
    (capTaken (dispatchSteam (runbackDrum .two drumFallen))).dispatch.allowed = 248 ∧
    (capTaken (dispatchSteam (runbackDrum .two drumFallen))).dispatch.cap = some 15660 := by
  decide +kernel

/-! ### Resets -/

theorem test_meets_ResetAssertionEffect :
    ({ base with resetAsserted := true } : State).resetAsserted = true ∧ base.resetAsserted = false ∧ base.settled :=
  ⟨rfl, rfl, rfl, rfl⟩

/-- RESET_N held, RESET_N not held, and a frozen table whose check code does not match. -/
theorem test_meets_LineResetEffect :
    ({ base with resetAsserted := true } : State).resetAsserted = true ∧ (∃ a, exec .resetNAssert base = .next a) ∧
    (let broken : State := { base with resetAsserted := true, limits := ⟨[], .operate, 0, 0⟩ }
     broken.resetAsserted = true ∧ broken.limits.mode = .operate ∧
       crc broken.limits.codeBytes ≠ broken.limits.checkCode) :=
  ⟨rfl, ⟨_, rfl⟩, rfl, rfl, by decide +kernel⟩

/-- The part with its free choices scripted, so that a run can be evaluated. -/
def scripted : State := { base with script := List.replicate 64 0 }

theorem test_meets_RestartEffect : Ready .restart (asked 0x50 block) [] (waiting 0x50 block base) ∧
    Confirms (asked 0x50 block) (waiting 0x50 block base) ∧ (waiting 0x50 block base).settled ∧
    (waiting 0x50 block base).attention.causes.length = 15 ∧
    (∃ t, exec .restart (waiting 0x50 block scripted) = .next t ∧ (t.port .field).urgent = [] ∧
      (t.port .field).routine = [] ∧ (t.port .supervisor).urgent = [] ∧ (t.port .supervisor).routine.length = 1) :=
  ⟨ready_of_row rfl rfl (by decide), by unfold Confirms; decide +kernel, ⟨rfl, rfl⟩, rfl, _, rfl, by decide +kernel,
   by decide +kernel, by decide +kernel, by decide +kernel⟩

/-! ### Links, transmissions, arrivals -/

theorem test_meets_LinksAndTransmissions :
    base.resetAsserted = false ∧ (State.reset.port .field).linkUp = false ∧
    (State.reset.port .field).transmitting = none ∧ (base.port .field).linkUp = true ∧ (base.port .field).Quiet ∧
    ({ Port.initial with transmitting := some frame0.frame }).transmitting = some frame0.frame := by
  refine ⟨rfl, rfl, rfl, rfl, ⟨rfl, rfl, rfl⟩, rfl⟩

/-- Each case of R33, the turn at credit 8 and the transit frame at credit 7 among them. -/
theorem test_meets_each_case_of_sends :
    (∃ f q, ({ Port.initial with urgent := [frame0] }).Sends f q) ∧
    (∃ f q, ({ Port.initial with routine := [frame0], transit := [frame0], credit := 8 }).Sends f q) ∧
    (∃ f q, ({ Port.initial with routine := [frame0], transit := [frame0], credit := 7 }).Sends f q) ∧
    (∃ f q, ({ Port.initial with routine := [frame0] }).Sends f q) :=
  ⟨⟨_, _, .urgent frame0 [] rfl⟩, ⟨_, _, .turn frame0 [] rfl rfl rfl⟩,
   ⟨_, _, .transit frame0 [] rfl rfl (fun _ => by decide)⟩, ⟨_, _, .routine frame0 [] rfl rfl rfl⟩⟩

/-- The part with a NOTICE to come for PORT_ERROR. -/
def noticing : State :=
  { base with attention := { base.attention with
    station := 250, causes := base.attention.causes.set 13 ⟨false, true, false, none⟩ } }

theorem test_meets_ArrivalEffects_port_errors :
    base.resetAsserted = false ∧ (base.port .field).linkUp = true ∧ base.attention.causes.length = 15 ∧
    lengthCheck (List.replicate 7 1) = false ∧
    (lengthCheck [1, 2, 3, 4, 5, 0, 0, 0] = true ∧ checkTest [1, 2, 3, 4, 5, 0, 0, 0] = false) ∧
    (noticing.resetAsserted = false ∧ (noticing.port .field).linkUp = true ∧ noticing.attention.causes.length = 15 ∧
      (noticing.cause .portError).status = false ∧ (noticing.cause .portError).enable = true ∧
      (noticing.cause .portError).noticed = false ∧ noticing.attention.station ≠ 0 ∧ noticing.reservation = false ∧
      (noticing.port .supervisor).routine.length < 16) := by
  decide +kernel

/-- An enabled slot that matches every frame. -/
def anyFrame (action : Action) (capture : Bool) : MatchSlot :=
  ⟨true, .either, 8, List.replicate 24 0, List.replicate 24 0, action, capture⟩

/-- A state whose last match slot, the others being disabled, decides every frame. -/
def deciding (m : MatchSlot) (s : State) : State :=
  { s with matchTable := List.replicate 23 MatchSlot.initial ++ [m] }

/-- A frame of a kind and payload for a station beyond the part. -/
def passing (kind : Byte) (payload : List Byte) : Frame := ⟨9, 8, kind, 0, 0, payload⟩

/-- What both clauses on match slots ask of frame, port and table. -/
def decided (p : PortId) (f : Frame) (m : MatchSlot) (s : State) : Bool :=
  !s.resetAsserted && (s.port p).linkUp && f.dest != s.ownStation && f.dest != 0#8 && f.payload.length ≤ 55 &&
    s.matchTable == List.replicate 23 MatchSlot.initial ++ [m] &&
    ((List.replicate 23 MatchSlot.initial).all fun x => !x.matches p f.bytes) && m.matches p f.bytes &&
    s.tripOffers == 0

/-- A reading of point 7, of point 8 and no reading, at a SAMPLES slot of a part that holds point 7. -/
theorem test_meets_ArrivalEffects_samples :
    let m := anyFrame .samples false
    let s := deciding m (withChannel (liveChannel .generic 1) base)
    let reading (point : Nat) (v : Int) (q : Byte) : List Byte := be16 point ++ sbe16 v ++ [q]
    m.action = .samples ∧ s.channelOfPoint 7 = some 0 ∧ s.channel 0 = some (liveChannel .generic 1) ∧
    s.channelOfPoint 65535 = none ∧ (s.port .supervisor).transit.length < 32 ∧
    decided .field (passing 0x10 (reading 7 (-32768) 0)) m s = true ∧
    decided .field (passing 0x10 (reading 7 32767 2)) m s = true ∧
    decided .field (passing 0x10 (reading 7 0 1)) m s = true ∧
    decided .field (passing 0x10 (reading 65535 5 0)) m s = true ∧
    decided .field (passing 0x10 []) m s = true ∧
    (decided .field (passing 0x10 [1, 2, 3, 4]) m s = true ∧ [1, 2, 3, (4 : Byte)].length % 5 ≠ 0) := by
  decide +kernel

/-- A feed group entry, number 60. -/
def feedGroup : Actuator := ⟨60, .feedGroup, some .one, 0, 0, 0, none, none, none, .inService, 0, 0, 0⟩

/-- A part whose line 1 binds feed group 60, with a ram in entry 1. -/
def feedBound (m : MatchSlot) : State :=
  deciding m { base with
    actuators := some feedGroup :: some ram :: List.replicate 46 none
    lineBinding := ⟨{ LineBinding.initial with feedBound := true, feedGroup := 60 }, LineBinding.initial⟩ }

/-- The payload of a command. -/
def commandBytes (number : Nat) (verb : Byte) (v : Int) : List Byte := be16 number ++ [verb] ++ sbe16 v

/-- Withheld: a malformed command, a ram's, and a feed group's in a form that no line takes. -/
theorem test_meets_ArrivalEffects_withheld :
    (∀ capture, let m := anyFrame .guard capture
      (decided .supervisor (passing 0x20 []) m (feedBound m) &&
        decided .supervisor (passing 0x20 (commandBytes 51 1 0)) m (feedBound m) &&
        decided .supervisor (passing 0x20 (commandBytes 60 1 0)) m (feedBound m) &&
        decided .supervisor (passing 0x20 (commandBytes 60 2 4)) m (feedBound m) &&
        decided .supervisor (passing 0x20 (commandBytes 60 2 101)) m (feedBound m)) = true) ∧
    (List.replicate 23 MatchSlot.initial).length < 24 ∧ (passing 0x20 []).command? = none ∧
    (passing 0x20 (commandBytes 51 1 0)).command? = some ⟨51, .set, 0⟩ ∧
    (passing 0x20 (commandBytes 60 2 4)).command? = some ⟨60, .stroke, 4⟩ ∧
    (let s := feedBound (anyFrame .guard true)
     s.entryOf 51 = some 1 ∧ s.actuator 1 = some ram ∧ s.entryOf 60 = some 0 ∧ s.actuator 0 = some feedGroup ∧
       (s.binding .one).feedGroupIs 60 = true ∧ (s.binding .two).feedGroupIs 60 = false ∧
       (base.binding .one).feedGroupIs 60 = false) := by
  decide +kernel

/-- Absorbed: a STROKE of 5 and of 100, with seven and with eight queued; a STOP with the engine READY, and with a
stroke in flight at a ram and at an entry that is empty. -/
theorem test_meets_ArrivalEffects_absorbed :
    let m := anyFrame .guard false
    let s := feedBound m
    let queued (n : Nat) := s.modFeed .one fun f => { f with queue := List.replicate n ⟨5, 1, 1, 99⟩ }
    let stroking (entry : Nat) := s.modFeed .one fun f => { f with engine := .inStroke entry 50 }
    (decided .supervisor (passing 0x20 (commandBytes 60 2 5)) m (queued 7) = true ∧
      (passing 0x20 (commandBytes 60 2 5)).command? = some ⟨60, .stroke, 5⟩ ∧
      ((queued 7).feedOf .one).queue.length < 8) ∧
    (decided .supervisor (passing 0x20 (commandBytes 60 2 100)) m (queued 8) = true ∧
      (passing 0x20 (commandBytes 60 2 100)).command? = some ⟨60, .stroke, 100⟩ ∧
      8 ≤ ((queued 8).feedOf .one).queue.length) ∧
    (passing 0x20 (commandBytes 60 3 0)).command? = some ⟨60, .stop, 0⟩ ∧
    (decided .supervisor (passing 0x20 (commandBytes 60 3 0)) m s = true ∧ (s.feedOf .one).engine = .ready) ∧
    (decided .supervisor (passing 0x20 (commandBytes 60 3 0)) m (stroking 1) = true ∧
      ((stroking 1).feedOf .one).engine = .inStroke 1 50 ∧ (stroking 1).actuator 1 = some ram) ∧
    (decided .supervisor (passing 0x20 (commandBytes 60 3 0)) m (stroking 2) = true ∧
      ((stroking 2).feedOf .one).engine = .inStroke 2 50 ∧ (stroking 2).actuator 2 = none) := by
  decide +kernel

/-- A MANAGE frame to the own station. -/
def manage : Frame := ⟨250, 5, 0x40, 7, 0, [0x40]⟩

theorem test_meets_ArrivalQueuesRequest :
    (base.resetAsserted = false ∧ (base.port .supervisor).linkUp = true ∧ manage.dest = base.ownStation ∧
      manage.dest ≠ 0#8 ∧ manage.kind = 0x40#8 ∧ manage.payload.length ≤ 55) ∧
    ({ base with requests := List.replicate 3 (asked 0x40 []) } : State).requests.length < 4 ∧
    4 ≤ ({ base with requests := List.replicate 4 (asked 0x40 []) } : State).requests.length := by
  decide

theorem test_meets_ArrivalForwardsUnmatched :
    (frame0.frame.dest ≠ base.ownStation ∧ frame0.frame.dest ≠ 0#8 ∧ frame0.frame.kind ≠ 0x20#8 ∧
      frame0.frame.payload.length ≤ 55 ∧ base.tripOffers = 0 ∧
      (∀ m ∈ base.matchTable, m.matches .field frame0.frame.bytes = false)) ∧
    ((base.modPort .supervisor fun q => { q with transit := List.replicate 31 frame0 }).port .supervisor).transit.length
      < 32 ∧
    32 ≤ ((base.modPort .supervisor fun q =>
      { q with transit := List.replicate 32 frame0 }).port .supervisor).transit.length := by
  decide +kernel

theorem test_meets_ArrivalSchedulesOrder :
    let s : State := { base with dispatch := { base.dispatch with gateway := 9 } }
    s.resetAsserted = false ∧ (s.port .supervisor).linkUp = true ∧ s.ownStation ≠ 0#8 ∧ s.reservation = false ∧
    (9#8).toNat = s.dispatch.gateway ∧ (9#8 : Byte) ≠ 0#8 ∧ 65535 < 65536 ∧ 0 ≤ 600 ∧
    ((0 : Nat) : Int) ≤ s.limit (.plant .maxLoad) ∧ 600 ≤ 600 ∧ s.plantTime < 604800 ∧
    604800 ≤ s.plantTime + 604800 ∧ s.ordersSound ∧ (∀ o ∈ s.dispatch.orders, s.plantTime < o.effective) ∧
    (∀ o ∈ s.dispatch.orders, o.number ≠ 65535) ∧ s.dispatch.orders.length < 16 ∧
    (s.port .supervisor).routine.length < 16 := by
  unfold State.ordersSound
  decide +kernel

/-- The turbine's entry. -/
def turbine : Actuator := ⟨6, .turbineLoad, none, 0, 0, 0, none, none, none, .inService, 0, 0, 0⟩

theorem test_meets_TurbineSetsEnterBounded :
    let s := withEntry0 turbine base
    (s.resetAsserted = false ∧ (s.port .supervisor).linkUp = true ∧ (9#8 : Byte) ≠ s.ownStation ∧
      s.entryOf 6 = some 0 ∧ s.actuator 0 = some turbine ∧ turbine.role = .turbineLoad) ∧
    ∃ t, exec (.frameArrival .supervisor
      (Frame.bytes ⟨9, 5, 0x20, 0, 0, be16 6 ++ [1] ++ sbe16 32767⟩)) s = .next t :=
  ⟨by decide +kernel, _, rfl⟩

theorem test_meets_RangedSetBounds :
    (damper 1000).min ≤ (damper 1000).max ∧
    ((damper 1000).last = some 1000 ∧ (damper 1000).maxStep ≠ 0 ∧ (0 : Int) ≤ 1000 ∧ (1000 : Int) ≤ (damper 1000).max) ∧
    ((damper 0).min ≤ 50 ∧ (50 : Int) ≤ (damper 0).max ∧ (0 : Int) - 50 ≤ 50 ∧ (50 : Int) ≤ 0 + 50) := by
  decide

theorem test_meets_RewriteLeavesNoneBeyond : -32768 ≤ (Bound.lower (-32768)).value ∧ (Bound.upper 32767).value ≤ 32767 := by
  decide

/-! ### Clock and sweep -/

theorem test_meets_SecondTickAdvancesTime : base.resetAsserted = false ∧ base.owedTick = [] := ⟨rfl, rfl⟩

/-- Line 1's feed admission unit changed, with every unit's tick owed. -/
def owing (f : Feed → Feed) (s : State) : State := { s.modFeed .one f with owedTick := TickUnit.all }

theorem test_meets_FeedTickEvents :
    let expiring := owing (fun f => { f with queue := [⟨5, 1, 1, 99⟩] }) { base with plantTime := 100 }
    let settling := owing (fun f => { f with engine := .settling, settleCount := 1 }) base
    let stroking := owing (fun f => { f with engine := .inStroke 0 50, timeoutCount := 1 }) (withEntry0 ram base)
    (expiring.resetAsserted = false ∧ .feed .one ∈ expiring.owedTick ∧
      (∃ e ∈ (expiring.feedOf .one).queue, e.deadline < expiring.plantTime) ∧ (expiring.feedOf .one).engine = .ready) ∧
    ((settling.feedOf .one).engine = .settling ∧ (settling.feedOf .one).settleCount = 1) ∧
    ((stroking.feedOf .one).engine = .inStroke 0 50 ∧ (stroking.feedOf .one).timeoutCount = 1 ∧
      stroking.actuator 0 = some ram ∧ stroking.attention.causes.length = 15 ∧ ram.position ≠ none) := by
  decide +kernel

/-- Line 1 ready to release a stroke to entry 0, with a ceiling. -/
def feeding (ceiling : Int) : State :=
  let s := withEntry0 ram base
  { s.modFeed .one (fun f => { f with holds := ⟨false, false, false, false, false, false⟩, queue := [⟨5, 1, 1, 99⟩] }) with
    dispatch := { s.dispatch with sink := .full }
    lineBinding := ⟨{ LineBinding.initial with ramCount := 1, ramList := [0, 255, 255, 255, 255, 255] },
      LineBinding.initial⟩
    limits := { s.limits with entries := s.limits.entries.set 3 ⟨ceiling, none⟩ } }

theorem test_meets_ReleaseCheckEffect :
    ((feeding 1).feedOf .one).engine = .ready ∧ ((feeding 1).feedOf .one).holds.isEmpty = true ∧
    ((feeding 1).feedOf .one).queue = [⟨5, 1, 1, 99⟩] ∧
    ((feeding 1).feedOf .one).bed + (feeding 1).strokeCharge .one 5 ≤ (feeding 1).ceiling .one ∧
    (feeding 1).seekRam .one 0 = some 0 ∧
    (feeding 0).ceiling .one < ((feeding 0).feedOf .one).bed + (feeding 0).strokeCharge .one 5 ∧
    (base.feedOf .one).holds.isEmpty = false ∧ (base.feedOf .one).queue = [] ∧ base.someRam .one = false := by
  decide +kernel

/-- An entry of the ram list that is empty is passed over for the next. -/
theorem test_meets_ReleaseCheckEffect_empty_entry :
    let s : State := { feeding 1 with
      lineBinding := ⟨{ LineBinding.initial with ramCount := 2, ramList := [47, 0, 255, 255, 255, 255] },
        LineBinding.initial⟩ }
    s.mayRelease .one = true ∧ s.actuator 47 = none ∧ (s.rams .one)[0]? = some 47 ∧ s.seekRam .one 0 = some 1 ∧
    (s.rams .one)[1]? = some 0 := by
  decide +kernel

theorem test_meets_OrderActivationEffect :
    let s : State := { base with
      owedTick := TickUnit.all, plantTime := 10
      dispatch := { base.dispatch with orders := [⟨1, 9, 5, 0⟩, ⟨2, 10, 6, 1⟩, ⟨3, 11, 7, 1⟩] } }
    s.resetAsserted = false ∧ .dispatch ∈ s.owedTick ∧ s.dispatch.orders = [⟨1, 9, 5, 0⟩] ++ [⟨2, 10, 6, 1⟩] ++ [⟨3, 11, 7, 1⟩] ∧
    (∀ q ∈ [(⟨1, 9, 5, 0⟩ : Order)] ++ [⟨2, 10, 6, 1⟩], q.effective ≤ s.plantTime) ∧
    (∀ q ∈ [(⟨3, 11, 7, 1⟩ : Order)], s.plantTime < q.effective) := by
  decide

theorem test_meets_RunbackHoldExpires :
    let s : State := { base with
      owedTick := TickUnit.all, runback := { base.runback with holdCount := 1, holdRunning := true } }
    s.resetAsserted = false ∧ .runback ∈ s.owedTick ∧ s.runback.envelope = .active ∧ s.runback.holdRunning = true ∧
    s.runback.holdCount = 1 := by
  decide

/-- A table in OPERATE whose next tick brings a scrub. -/
def scrubbing (code : BitVec 16) : State := { base with owedTick := TickUnit.all, limits := ⟨[], .operate, code, 9⟩ }

theorem test_meets_ScrubAndStorageFault :
    ((scrubbing 0).resetAsserted = false ∧ .limits ∈ (scrubbing 0).owedTick ∧ (scrubbing 0).limits.mode = .operate ∧
      (scrubbing 0).limits.scrubCount = 9 ∧ (scrubbing 0).attention.causes.length = 15) ∧
    crc (scrubbing 0xFFFF).limits.codeBytes = (scrubbing 0xFFFF).limits.checkCode ∧
    crc (scrubbing 0).limits.codeBytes ≠ (scrubbing 0).limits.checkCode ∧ base.limits.mode = .commission := by
  decide

theorem test_meets_BoundaryCloseEffect :
    let s : State := { base with owedTick := TickUnit.all, plantTime := 600 }
    s.resetAsserted = false ∧ .averager .one ∈ s.owedTick ∧ (s.averagerOf .one).nextBoundary ≤ s.plantTime ∧
    (s.averagerOf .one).nextBoundary % 1800 ≠ 0 := by
  decide

/-- Line 1 at a boundary, its pollutant HCL with block means and, where asked, an open episode, number 1. -/
def closing (boundary : Nat) (mean : Option Nat) (episode : Option Nat) : State :=
  let s : State := { base with
    owedTick := TickUnit.all
    plantTime := boundary
    log := if episode.isSome then [⟨1, .one, .hcl, .halfHour, .open, 0, none, 5, 1⟩] else []
    limits := { base.limits with entries := base.limits.entries.set 51 ⟨1, none⟩ } }
  ((s.modFeed .one fun f => { f with reasons := ⟨false, false, false⟩ }).modAverager .one fun a =>
    { a with nextBoundary := boundary }).modPollutant .one .hcl fun x =>
    { x with means := [mean, mean, mean], openEpisode := episode, ring := List.replicate 48 (.value 5) }

/-- A half-hour whose value lies above the limit, at it, or is missing, with and without an open episode; and a day. -/
theorem test_meets_BoundaryCloseEffect_half_hour :
    let s := closing 1800 (some 9) none
    (s.resetAsserted = false ∧ .averager .one ∈ s.owedTick ∧ (s.averagerOf .one).nextBoundary ≤ s.plantTime ∧
      (s.averagerOf .one).nextBoundary % 1800 = 0 ∧ s.attention.causes.length = 15 ∧
      s.exceeds .one .hcl = true ∧ (s.pollutantOf .one .hcl).openEpisode = none ∧
      (s.feedOf .one).reasons = ⟨false, false, false⟩) ∧
    ((closing 1800 (some 9) (some 1)).exceeds .one .hcl = true ∧
      ((closing 1800 (some 9) (some 1)).pollutantOf .one .hcl).openEpisode = some 1 ∧
      ∃ e ∈ (closing 1800 (some 9) (some 1)).log, e.isOpenEpisode .one .hcl = true) ∧
    (halfHourValue ((closing 1800 (some 0) (some 1)).pollutantOf .one .hcl).means = some 0 ∧
      (closing 1800 (some 0) (some 1)).exceeds .one .hcl = false ∧ (closing 1800 (some 0) (some 1)).log.length ≤ 20) ∧
    halfHourValue ((closing 1800 none (some 1)).pollutantOf .one .hcl).means = none ∧
    (∀ p, (closing 1800 (some 0) none).exceeds .one p = false ∧
      ((closing 1800 (some 0) none).pollutantOf .one p).openEpisode = none) ∧ 1800 % 86400 ≠ 0 ∧
    (let d := closing 86400 (some 9) none
     (d.averagerOf .one).nextBoundary % 86400 = 0 ∧ d.limit (.plant .dayMinValid) = 1 ∧
       d.lineLimit .one (.dayLimit .hcl) < 5 ∧ d.log.length ≤ 20) := by
  refine ⟨by decide, ⟨by decide, by decide, by decide⟩, by decide, by decide, fun p => ?_, by decide, by decide⟩
  cases p <;> decide

/-- Channel 0 at its window's last sweep, with channel 1 as its fallback. -/
def silent (fallback : ChannelState) : State :=
  { base with
    owedSweep := SweepUnit.all
    channels := [some ⟨7, .generic, none, 1, 8, some 1, .live, some 5, .good, 0, false, 7, 0⟩,
      some { liveChannel .generic 6 with point := 8, state := fallback }] }

theorem test_meets_SweepMarksChannels :
    base.resetAsserted = false ∧ base.owedSweep = [] ∧
    ∀ c, some c ∈ ({ base with channels := [some (liveChannel .generic 1)] } : State).channels → c.lostAtSweep = false := by
  refine ⟨rfl, rfl, ?_⟩
  intro c hc
  have h : c = liveChannel .generic 1 := by
    simpa using hc
  subst h
  rfl

theorem test_meets_SweepEvents :
    (∃ c, (silent .live).channel 0 = some c ∧ .channels ∈ (silent .live).owedSweep ∧ (silent .live).sweepNext = 0 ∧
      c.state = .live ∧ c.seen = false ∧ c.miss < 255 ∧ c.window ≤ c.miss + 1 ∧
      (silent .live).attention.causes.length = 15 ∧ c.fallback = some 1 ∧ (silent .live).isLive 1 = true ∧
      (silent .stale).isLive 1 = false) ∧
    (.trip .one ∈ (silent .live).owedSweep ∧
      (silent .live).roleValue ((silent .live).binding .one).drumLevel = none ∧
      ((silent .live).tripOf .one).grace < 255 ∧
      (silent .live).lineLimit .one .drumGrace ≤ (((silent .live).tripOf .one).grace + 1 : Int) ∧
      ((silent .live).tripOf .one).causes.drumLowLow = false) :=
  ⟨⟨_, rfl, by decide⟩, by decide +kernel⟩

theorem test_meets_OnlyOwnersWrite :
    isReset .readStatus = false ∧ ∃ t, exec .readStatus (waiting 0x40 [] base) = .next t := ⟨rfl, _, rfl⟩

/-! ### Requests: form, refusals, reading -/

/-- A row, a request of it, and whether the request passes the length test of R11. -/
def malformed : List (Instr × Nat × List Byte) :=
  [(.readTable, 1, []), (.writeEntryMatch, 2, [1]), (.pointInsert, 2, [2]), (.writeEntryActuators, 2, [3]),
   (.writeEntryFeedSettings, 2, [5]), (.writeEntryRunback, 2, [6]), (.writeEntryDispatch, 2, [7]),
   (.writeEntryNotices, 2, [8]), (.deleteEntryPoints, 3, [2]), (.deleteEntryActuators, 3, [3]), (.setLimit, 0x10, []),
   (.setOverride, 0x11, []), (.clearOverride, 0x12, []), (.setTime, 0x20, []), (.setChannelService, 0x21, []),
   (.rearmChannel, 0x22, []), (.enableRam, 0x23, []), (.holdFeed, 0x30, []), (.clearHold, 0x31, []), (.trip, 0x32, []),
   (.stopRunback, 0x34, [0]), (.readStatus, 0x40, [0]), (.readCapture, 0x41, []), (.releaseCapture, 0x42, []),
   (.clearAttention, 0x43, []), (.clearPortErrors, 0x44, []), (.setNotices, 0x45, []), (.unknownRequest, 0, []),
   (.writeEntryReadOnly, 2, [9]), (.deleteEntryRefused, 3, [1, 0, 0]), (.writeEntryBindings, 2, [4]),
   (.tripReset, 0x33, []), (.newYear, 0x35, [])]

theorem test_meets_FormRefusals :
    (malformed.all fun x => decide ((waiting x.2.1 x.2.2 base).rowOf (asked x.2.1 x.2.2) = x.1) &&
      decide ((asked x.2.1 x.2.2).args = x.2.2)) = true ∧
    Ready .unknownRequest (asked 0 []) [] (waiting 0 [] base) ∧
    Ready .readStatus (asked 0x40 [0]) [] (waiting 0x40 [0] base) ∧
    Ready .writeEntryBindings (asked 2 [4]) [] (waiting 2 [4] base) ∧
    Ready .tripReset (asked 0x33 []) [] (waiting 0x33 [] base) :=
  ⟨by decide +kernel, ready_of_row rfl rfl (by decide), ready_of_row rfl rfl (by decide),
   ready_of_row rfl rfl (by decide), ready_of_row rfl rfl (by decide)⟩

theorem test_meets_ConfirmNotFound :
    (Ready .freeze (asked 0x13 []) [] (waiting 0x13 [] base) ∧ ¬ Confirms (asked 0x13 []) (waiting 0x13 [] base)) ∧
    (Ready .restart (asked 0x50 []) [] (waiting 0x50 [] base) ∧ ¬ Confirms (asked 0x50 []) (waiting 0x50 [] base)) ∧
    (Ready .tripReset (asked 0x33 [1]) [] (waiting 0x33 [1] base) ∧
      ¬ Confirms (asked 0x33 [1]) (waiting 0x33 [1] base)) ∧
    (Ready .newYear (asked 0x35 [1]) [] (waiting 0x35 [1] base) ∧ ¬ Confirms (asked 0x35 [1]) (waiting 0x35 [1] base)) ∧
    base.armed .confirmFail = true ∧ base.freeSlot = some 0 ∧ base.attention.causes.length = 15 := by
  unfold Confirms
  exact ⟨⟨ready_of_row rfl rfl (by decide), by decide⟩, ⟨ready_of_row rfl rfl (by decide), by decide⟩,
    ⟨ready_of_row rfl rfl (by decide), by decide⟩, ⟨ready_of_row rfl rfl (by decide), by decide⟩, rfl, rfl, rfl⟩

/-- A source that is DISARMED, and a store with no slot free. -/
theorem test_meets_ConfirmNotFound_disarmed_and_full :
    let taken (src : CaptureSource) : CaptureRecord := ⟨src, .supervisor, 0, .absorbed, List.replicate 8 1⟩
    let disarmed : State := { base with capture := { base.capture with
      slots := base.capture.slots.set 0 (some (taken .confirmFail))
      armed := base.capture.armed.set CaptureSource.confirmFail.code false } }
    let full : State := { base with capture := { base.capture with slots := List.replicate 8 (some (taken .clamp)) } }
    (Ready .freeze (asked 0x13 []) [] (waiting 0x13 [] disarmed) ∧ disarmed.armed .confirmFail = false) ∧
    (Ready .freeze (asked 0x13 []) [] (waiting 0x13 [] full) ∧ full.armed .confirmFail = true ∧
      full.freeSlot = none ∧ full.attention.causes.length = 15) :=
  ⟨⟨ready_of_row rfl rfl (by decide), by decide⟩, ready_of_row rfl rfl (by decide), by decide, by decide, rfl⟩

theorem test_meets_RefusalsChangeNothing :
    isRequestRow .stopRunback = true ∧ Ready .stopRunback (asked 0x34 []) [] (waiting 0x34 [] base) :=
  ⟨rfl, ready_of_row rfl rfl (by decide)⟩

theorem test_meets_ReadStatusReply :
    (Ready .readStatus (asked 0x40 []) [] (waiting 0x40 [] base) ∧ (asked 0x40 []).args = []) ∧
    Ready .readStatus (asked 0x40 [0]) [] (waiting 0x40 [0] base) ∧ (asked 0x40 [0]).args ≠ [] :=
  ⟨⟨ready_of_row rfl rfl (by decide), rfl⟩, ready_of_row rfl rfl (by decide), by decide⟩

theorem test_meets_ReadTableReply :
    (Ready .readTable (asked 1 [9, 0, 51, 255]) [] (waiting 1 [9, 0, 51, 255] base) ∧ lastIndex? (9#8).toNat = some 51) ∧
    (Ready .readTable (asked 1 [9, 0, 52, 1]) [] (waiting 1 [9, 0, 52, 1] base) ∧ 51 < 52) ∧
    (Ready .readTable (asked 1 [5, 0, 0, 1]) [] (waiting 1 [5, 0, 0, 1] base) ∧ lastIndex? (5#8).toNat = some 2) ∧
    (Ready .readTable (asked 1 [11, 2, 63, 1]) [] (waiting 1 [11, 2, 63, 1] base) ∧ 2 * 256 + 63 ≤ 575 ∧
      lastIndex? (11#8).toNat = some 575) :=
  ⟨⟨ready_of_row rfl rfl (by decide), rfl⟩, ⟨ready_of_row rfl rfl (by decide), by decide⟩,
   ⟨ready_of_row rfl rfl (by decide), rfl⟩, ⟨ready_of_row rfl rfl (by decide), by decide, rfl⟩⟩

/-! ### Requests: table writes -/

/-- A WRITE_ENTRY is ready, and its argument area is as given. -/
theorem ready_to_write {row : Instr} {args : List Byte} {s : State}
    (h : (waiting 2 args s).rowOf (asked 2 args) = row) (ha : s.resetAsserted = false)
    (hr : (s.port .supervisor).routine.length < 16) :
    Ready row (asked 2 args) [] (waiting 2 args s) ∧ (asked 2 args).args = args := ⟨ready_of_row h ha hr, rfl⟩

theorem test_meets_SettingsWrites :
    (let args : List Byte := [1, 0, 23, 63 - 4, 63] ++ List.replicate 24 0xFF ++ List.replicate 24 0
     (Ready .writeEntryMatch (asked 2 args) [] (waiting 2 args base) ∧ (asked 2 args).args = args) ∧
      59 / 4 % 4 = Direction.either.code) ∧
    (let args : List Byte := [5, 0, u8 Line.two.code] ++ be16 600 ++ [2, 120]
     Ready .writeEntryFeedSettings (asked 2 args) [] (waiting 2 args base) ∧ (asked 2 args).args = args) ∧
    (let args : List Byte := [6, 0, 0] ++ be16 600 ++ be16 0 ++ be16 5 ++ [3]
     Ready .writeEntryRunback (asked 2 args) [] (waiting 2 args base) ∧ (asked 2 args).args = args) ∧
    (let args : List Byte := [6, 0, 0] ++ be16 10 ++ be16 600 ++ be16 300 ++ [7]
     Ready .writeEntryRunback (asked 2 args) [] (waiting 2 args base) ∧ (asked 2 args).args = args) :=
  ⟨⟨ready_to_write rfl rfl (by decide), rfl⟩, ready_to_write rfl rfl (by decide), ready_to_write rfl rfl (by decide),
   ready_to_write rfl rfl (by decide)⟩

theorem test_meets_PointInsertEffect :
    let args : List Byte := [2, 0, 0] ++ be16 65535 ++ [0, u8 ChannelClass.generic.code, u8 (lineCode (some .two)), 15, 40, 255]
    (Ready .pointInsert (asked 2 args) [] (waiting 2 args base) ∧ (asked 2 args).args = args) ∧
    base.hasPoint 65535 = false ∧ base.channels[0]? = some none ∧
    none ∉ ({ base with channels := [some (liveChannel .generic 1)] } : State).channels :=
  ⟨ready_to_write rfl rfl (by decide), rfl, rfl, by simp⟩

theorem test_meets_PointUpdateEffect :
    let s := withChannel (liveChannel .generic 1) base
    let own : List Byte := [2, 0, 0] ++ be16 7 ++ [0, u8 ChannelClass.generic.code, u8 (lineCode (some .one)), 1, 2, 0]
    let other : List Byte := [2, 0, 0] ++ be16 7 ++ [0, u8 ChannelClass.status.code, u8 (lineCode none), 15, 40, 255]
    (Ready .pointUpdate (asked 2 own) [] (waiting 2 own s) ∧ (asked 2 own).args = own) ∧
    (Ready .pointUpdate (asked 2 other) [] (waiting 2 other s) ∧ (asked 2 other).args = other) ∧
    s.channelOfPoint 7 = some 0 ∧ s.channel 0 = some (liveChannel .generic 1) ∧ (liveChannel .generic 1).cls = .generic ∧
    ({ liveChannel .generic 1 with state := .outOfService } : Channel).state = .outOfService :=
  ⟨ready_to_write rfl rfl (by decide), ready_to_write rfl rfl (by decide), rfl, rfl, rfl, rfl⟩

theorem test_meets_DeletionsEffect :
    let s := withChannel (liveChannel .position 1) base
    let used := withEntry0 ram s
    let point : List Byte := [2] ++ be16 7
    let entry : List Byte := [3, 0, 0]
    Ready .deleteEntryPoints (asked 3 point) [] (waiting 3 point s) ∧ base.channelOfPoint 7 = none ∧
    s.channelOfPoint 7 = some 0 ∧ s.channelInUse 0 = false ∧ used.channelInUse 0 = true ∧
    Ready .deleteEntryActuators (asked 3 entry) [] (waiting 3 entry used) ∧ base.actuator 0 = none ∧
    used.actuator 0 = some ram ∧ used.entryNamed 0 ram = false ∧ used.ramInFlight 0 = false ∧
    (feeding 1).entryNamed 0 ram = true :=
  ⟨ready_of_row rfl rfl (by decide), rfl, rfl, by decide +kernel, by decide +kernel, ready_of_row rfl rfl (by decide), rfl,
   rfl, by decide +kernel, by decide +kernel, by decide +kernel⟩

/-- An ACTUATORS record of a lime feeder, written to entry 47. -/
def limeArgs : List Byte :=
  [3, 0, 47] ++ be16 4410 ++ [5, 1] ++ sbe16 0 ++ sbe16 800 ++ be16 0 ++ [0, 0, 0, 255, 0] ++ sbe16 0 ++ sbe16 250 ++ sbe16 800

theorem test_meets_ActuatorWriteEffect :
    let a : Actuator := ⟨4410, .lime, some .one, 0, 800, 0, none, none, none, .inService, 0, 250, 800⟩
    Ready .writeEntryActuators (asked 2 limeArgs) [] (waiting 2 limeArgs base) ∧ (asked 2 limeArgs).args.length = 24 ∧
    indexArg limeArgs = 47 ∧ base.actuators.length = 48 ∧ Actuator.ofRecord? (recordArg limeArgs) = some a ∧
    base.actuatorFits a = true ∧ base.otherEntry 47 (·.number == a.number) = false ∧ base.breaksBinding 47 a = false ∧
    base.ramInFlight 47 = false ∧
    (base.modFeed .one fun f => { f with engine := .inStroke 47 50 }).ramInFlight 47 = true :=
  ⟨ready_of_row rfl rfl (by decide), rfl, by decide, by decide, by decide, by decide, by decide +kernel, by decide +kernel,
   by decide +kernel, by decide +kernel⟩

/-- A BINDINGS record of a line that binds ram entry 0 and, where asked, feed group 60. -/
def bindingArgs (line bound : Byte) : List Byte :=
  [4, 0, line] ++ List.replicate 10 255 ++ [bound] ++ be16 60 ++ [255, 1, 0] ++ List.replicate 5 255 ++ [0]

theorem test_meets_BindingWriteEffect :
    let s := withEntry0 ram base
    let new := LineBinding.ofRecord (recordArg (bindingArgs 1 0))
    let bound := LineBinding.ofRecord (recordArg (bindingArgs 1 1))
    let twice : State := { s with lineBinding := ⟨LineBinding.initial, bound⟩ }
    (Ready .writeEntryBindings (asked 2 (bindingArgs 1 0)) [] (waiting 2 (bindingArgs 1 0) s) ∧
      (asked 2 (bindingArgs 1 0)).args.length = 25 ∧ indexArg (bindingArgs 1 0) = Line.one.code ∧
      lineRecordCoded (recordArg (bindingArgs 1 0)) = true ∧ s.lineBindingFits .one new = true ∧
      (new.feedBound && (s.binding (otherLine .one)).feedGroupIs new.feedGroup) = false ∧
      ramFieldsDiffer (s.binding .one) new = true ∧ s.inStroke .one = false ∧
      (s.modFeed .one fun f => { f with engine := .inStroke 0 50 }).inStroke .one = true) ∧
    (lineRecordCoded (recordArg (bindingArgs 1 1)) = true ∧
      (bound.feedBound && (twice.binding (otherLine .one)).feedGroupIs bound.feedGroup) = true) :=
  ⟨⟨ready_of_row rfl rfl (by decide), rfl, by decide, by decide, by decide +kernel, by decide, by decide, by decide,
    by decide⟩, by decide⟩

/-- A plant BINDINGS record. -/
def plantArgs (turbine bypass load : Byte) : List Byte := [4, 0, 0, turbine, bypass, load]

/-- Records that fit, with both status roles as they stood and with one changed, and records that do not fit. -/
theorem test_meets_BindingWriteEffect_plant :
    let s := withEntry0 turbine (withChannel { liveChannel .status 1 with line := none } base)
    let bound : State := { s with plantBinding := ⟨some 0, none, some 0⟩ }
    Ready .writeEntryBindings (asked 2 (plantArgs 0 255 0)) [] (waiting 2 (plantArgs 0 255 0) s) ∧
    (asked 2 (plantArgs 0 255 0)).args = [4, 0, 0, 0, 255, 0] ∧
    (∃ c, s.channel 0 = some c ∧ c.cls = .status) ∧ (∃ a, s.actuator 0 = some a ∧ a.role = .turbineLoad) ∧
    s.plantBinding.turbineStatus = none ∧ s.effective 0 = some 1 ∧ s.dispatch.sink = .none ∧
    (Ready .writeEntryBindings (asked 2 (plantArgs 0 255 255)) [] (waiting 2 (plantArgs 0 255 255) bound) ∧
      bound.plantBinding.turbineStatus = some 0 ∧ bound.plantBinding.bypassStatus = none) ∧
    (Ready .writeEntryBindings (asked 2 (plantArgs 95 255 255)) [] (waiting 2 (plantArgs 95 255 255) s) ∧
      s.channel 95 = none) ∧
    (Ready .writeEntryBindings (asked 2 (plantArgs 255 255 47)) [] (waiting 2 (plantArgs 255 255 47) s) ∧
      s.actuator 47 = none) :=
  ⟨ready_of_row rfl rfl (by decide), rfl, ⟨_, rfl, rfl⟩, ⟨_, rfl, rfl⟩, rfl, rfl, rfl,
   ⟨ready_of_row rfl rfl (by decide), rfl, rfl⟩, ⟨ready_of_row rfl rfl (by decide), rfl⟩,
   ready_of_row rfl rfl (by decide), rfl⟩

/-- The coded fields of a ram list (R14): an index of 48 within the ram count is none of them, beyond it is ignored. -/
theorem test_ram_list_coded :
    lineRecordCoded ((recordArg (bindingArgs 1 0)).set 15 48) = false ∧
    lineRecordCoded ((recordArg (bindingArgs 1 0)).set 15 47) = true ∧
    lineRecordCoded ((recordArg (bindingArgs 1 0)).set 16 48) = true := by
  decide

/-- The part with the turbine's entry bound, its last forwarded value as given. -/
def following (last : Option Int) : State :=
  { withEntry0 { turbine with last := last } base with plantBinding := ⟨none, none, some 0⟩ }

theorem test_meets_DispatchWriteAndOriginatedCommands :
    let on : List Byte := [7, 0, 0, 250, 1]
    let off : List Byte := [7, 0, 0, 0, 0]
    let empty : State := { base with plantBinding := ⟨none, none, some 47⟩ }
    ((Ready .writeEntryDispatch (asked 2 on) [] (waiting 2 on base) ∧ (asked 2 on).args = on) ∧
      base.dispatch.follow = false ∧ base.plantBinding.turbineLoad = none) ∧
    (Ready .writeEntryDispatch (asked 2 off) [] (waiting 2 off base) ∧ (asked 2 off).args = off) ∧
    (Ready .writeEntryDispatch (asked 2 [7, 0, 0, 251, 0]) [] (waiting 2 [7, 0, 0, 251, 0] base) ∧
      (asked 2 [7, 0, 0, 251, 0]).args = [7, 0, 0, 251, 0]) ∧
    (Ready .writeEntryDispatch (asked 2 [7, 0, 0, 0, 2]) [] (waiting 2 [7, 0, 0, 0, 2] base) ∧
      (asked 2 [7, 0, 0, 0, 2]).args = [7, 0, 0, 0, 2]) ∧
    ((Ready .writeEntryDispatch (asked 2 on) [] (waiting 2 on empty) ∧ (asked 2 on).args = on) ∧
      empty.plantBinding.turbineLoad = some 47 ∧ empty.actuator 47 = none) ∧
    (∀ last, Ready .writeEntryDispatch (asked 2 on) [] (waiting 2 on (following last)) ∧
      (following last).dispatch.follow = false ∧ (following last).plantBinding.turbineLoad = some 0 ∧
      (following last).actuator 0 = some { turbine with last := last } ∧ (following last).dispatch.allowed = 0) :=
  ⟨⟨ready_to_write rfl rfl (by decide), rfl, rfl⟩, ready_to_write rfl rfl (by decide),
   ready_to_write rfl rfl (by decide), ready_to_write rfl rfl (by decide),
   ⟨ready_to_write rfl rfl (by decide), rfl, rfl⟩,
   fun last => ⟨ready_of_row (s := following last) rfl rfl (by exact Nat.zero_lt_succ 15), rfl, rfl, rfl, rfl⟩⟩

/-- A waiting command for actuator 6. -/
def waitingSet : Waiting := ⟨0, passing 0x20 (commandBytes 6 1 40)⟩

/-- A command for actuator 6 that coalesces, takes a slot behind fifteen frames, and finds sixteen. -/
theorem test_meets_originated_commands :
    let s := following none
    let filled (ws : List Waiting) := s.modPort .field fun q => { q with routine := ws }
    waitingSet.commands 6 = true ∧ frame0.commands 6 = false ∧
    (((filled [frame0, waitingSet]).port .field).origin .routine = [frame0] ++ waitingSet :: [] ∧
      ∀ x ∈ [frame0], x.commands 6 = false) ∧
    ((∀ w ∈ ((filled (List.replicate 15 frame0)).port .field).origin .routine, w.commands 6 = false) ∧
      (((filled (List.replicate 15 frame0)).port .field).origin .routine).length < 16) ∧
    ((∀ w ∈ ((filled (List.replicate 16 frame0)).port .field).origin .routine, w.commands 6 = false) ∧
      16 ≤ (((filled (List.replicate 16 frame0)).port .field).origin .routine).length) ∧
    s.attention.causes.length = 15 ∧ s.entryOf 6 = some 0 ∧ s.actuator 0 = some { turbine with last := none } := by
  decide +kernel

theorem test_meets_NoticesWrites :
    let args : List Byte := [8, 0, 0, 250] ++ be16 32767
    (Ready .writeEntryNotices (asked 2 args) [] (waiting 2 args base) ∧ (asked 2 args).args = args) ∧
    (Ready .setNotices (asked 0x45 (be16 0)) [] (waiting 0x45 (be16 0) base) ∧
      (asked 0x45 (be16 0)).args = be16 0 ∧ (0#8).toNat = base.attention.station) ∧ base.attention.causes.length = 15 :=
  ⟨ready_to_write rfl rfl (by decide), ⟨ready_of_row rfl rfl (by decide), rfl, rfl⟩, rfl⟩

/-! ### Requests: limit table and clock -/

theorem test_meets_SetLimitEffect :
    let args : List Byte := [51] ++ sbe16 48
    (Ready .setLimit (asked 0x10 args) [] (waiting 0x10 args base) ∧ (asked 0x10 args).args = [51] ++ sbe16 48) ∧
    base.limits.entries.length = 52 ∧ (LimitId.plant .dayMinValid).index = 51 ∧ base.limits.mode = .commission ∧
    (LimitId.plant .dayMinValid).range = (1, 48) ∧ (operating base).limits.mode = .operate ∧
    (Ready .setLimit (asked 0x10 [52, 0, 0]) [] (waiting 0x10 [52, 0, 0] base) ∧ 51 < (52#8).toNat) :=
  ⟨⟨ready_of_row rfl rfl (by decide), rfl⟩, by decide, rfl, rfl, rfl, rfl,
   ⟨ready_of_row rfl rfl (by decide), by decide⟩⟩

/-- Line 1's DRUM_LOW commissioned at −100 and overridden at 0, its DRUM_LOW_LOW commissioned at −200. -/
def drums : State :=
  { base with limits := { base.limits with
    entries := (base.limits.entries.set 9 ⟨-100, some 0⟩).set 10 ⟨-200, none⟩ } }

theorem test_meets_OverridesEffect :
    let low : LimitId := .line .one .drumLow
    let lowLow : LimitId := .line .one .drumLowLow
    let set : List Byte := [u8 lowLow.index] ++ sbe16 (-1)
    let refused : List Byte := [u8 lowLow.index] ++ sbe16 0
    (low.acceptsOverride = true ∧ lowLow.acceptsOverride = true ∧ drums.limits.entries.length = 52) ∧
    (Ready .setOverride (asked 0x11 set) [] (waiting 0x11 set drums) ∧ (asked 0x11 set).args = set ∧
      lowLow.looser (-1) (drums.limitEntry lowLow).commissioned = false ∧
      -1 < drums.lineLimit .one .drumLow) ∧
    (Ready .setOverride (asked 0x11 refused) [] (waiting 0x11 refused drums) ∧ drums.lineLimit .one .drumLow ≤ 0) ∧
    lowLow.looser (-201) (drums.limitEntry lowLow).commissioned = true ∧
    (Ready .clearOverride (asked 0x12 [u8 low.index]) [] (waiting 0x12 [u8 low.index] drums) ∧
      (drums.limitEntry low).override ≠ none ∧ drums.lineLimit .one .drumLowLow < (drums.limitEntry low).commissioned) ∧
    (drums.limitEntry lowLow).override = none :=
  ⟨by decide, ⟨ready_of_row rfl rfl (by decide), rfl, by decide, by decide⟩,
   ⟨ready_of_row rfl rfl (by decide), by decide⟩, by decide, ⟨ready_of_row rfl rfl (by decide), by decide, by decide⟩,
   by decide⟩

/-- An index above 51, an entry that accepts no override, a value outside the range, a DRUM_LOW whose override may not
go, and an override that is absent. -/
theorem test_meets_OverridesEffect_refusals :
    let low : LimitId := .line .one .drumLow
    let tight : State := { drums with limits := { drums.limits with entries := drums.limits.entries.set 10 ⟨-100, none⟩ } }
    let set (index : Byte) (v : Int) : List Byte := [index] ++ sbe16 v
    (Ready .setOverride (asked 0x11 (set 52 0)) [] (waiting 0x11 (set 52 0) drums) ∧
      Ready .clearOverride (asked 0x12 [52]) [] (waiting 0x12 [52] drums) ∧ 51 < (52#8).toNat) ∧
    (Ready .setOverride (asked 0x11 (set 51 5)) [] (waiting 0x11 (set 51 5) drums) ∧
      Ready .clearOverride (asked 0x12 [51]) [] (waiting 0x12 [51] drums) ∧
      (LimitId.plant .dayMinValid).index = (51#8).toNat ∧ (LimitId.plant .dayMinValid).acceptsOverride = false) ∧
    (Ready .setOverride (asked 0x11 (set (u8 low.index) 32767)) [] (waiting 0x11 (set (u8 low.index) 32767) drums) ∧
      low.acceptsOverride = true ∧ low.range.2 < 32767) ∧
    (Ready .clearOverride (asked 0x12 [u8 low.index]) [] (waiting 0x12 [u8 low.index] tight) ∧
      (tight.limitEntry low).override ≠ none ∧
      (tight.limitEntry low).commissioned ≤ tight.lineLimit .one .drumLowLow) ∧
    (Ready .clearOverride (asked 0x12 [u8 low.index]) [] (waiting 0x12 [u8 low.index] base) ∧
      (base.limitEntry low).override = none) :=
  ⟨⟨ready_of_row rfl rfl (by decide), ready_of_row rfl rfl (by decide), by decide⟩,
   ⟨ready_of_row rfl rfl (by decide), ready_of_row rfl rfl (by decide), rfl, rfl⟩,
   ⟨ready_of_row rfl rfl (by decide), rfl, by decide⟩, ⟨ready_of_row rfl rfl (by decide), by decide, by decide⟩,
   ready_of_row rfl rfl (by decide), by decide⟩

/-- A table that FREEZE accepts: each entry at the least value of its range, but DRUM_LOW one above it. -/
def commissioned : State :=
  { base with limits := { base.limits with
    entries := ((List.range 52).map fun n =>
      match LimitId.ofIndex? n with
      | some (.line l .drumLow) => ⟨(LimitId.line l .drumLow).range.1 + 1, none⟩
      | some i => ⟨i.range.1, none⟩
      | none => ⟨0, none⟩) } }

theorem test_meets_FreezeEffect :
    Ready .freeze (asked 0x13 block) [] (waiting 0x13 block commissioned) ∧
    Confirms (asked 0x13 block) (waiting 0x13 block commissioned) ∧ commissioned.limits.mode = .commission ∧
    commissioned.freezable = true ∧ base.freezable = false ∧ (operating base).limits.mode = .operate :=
  ⟨ready_of_row rfl rfl (by decide), by unfold Confirms; decide +kernel, rfl, by decide +kernel, by decide +kernel, rfl⟩

theorem test_meets_SetTimeEffect :
    (Ready .setTime (asked 0x20 (be32 60)) [] (waiting 0x20 (be32 60) (operating base)) ∧
      (asked 0x20 (be32 60)).args = be32 60 ∧ 60 ≤ (operating base).plantTime + 60) ∧
    (Ready .setTime (asked 0x20 (be32 61)) [] (waiting 0x20 (be32 61) (operating base)) ∧
      (asked 0x20 (be32 61)).args = be32 61 ∧ (operating base).plantTime + 60 < 61) ∧
    base.limits.mode = .commission :=
  ⟨⟨ready_of_row rfl rfl (by decide), rfl, by decide⟩, ⟨ready_of_row rfl rfl (by decide), rfl, by decide⟩, rfl⟩

/-! ### Requests: channels, rams, holds -/

theorem test_meets_ChannelServiceEffects :
    let live := withChannel (liveChannel .generic 1) base
    let out := withChannel { liveChannel .generic 1 with state := .outOfService } base
    let failed := withChannel { liveChannel .generic 1 with state := .failedOver } base
    Ready .setChannelService (asked 0x21 [0, 2]) [] (waiting 0x21 [0, 2] live) ∧
    live.channel 0 = some (liveChannel .generic 1) ∧
    Ready .setChannelService (asked 0x21 [0, 1]) [] (waiting 0x21 [0, 1] out) ∧
    (out.channel 0).map (·.state) = some .outOfService ∧
    Ready .setChannelService (asked 0x21 [0, 3]) [] (waiting 0x21 [0, 3] live) ∧
    Ready .rearmChannel (asked 0x22 [0]) [] (waiting 0x22 [0] failed) ∧
    (failed.channel 0).map (·.state) = some .failedOver ∧
    Ready .setChannelService (asked 0x21 [96, 1]) [] (waiting 0x21 [96, 1] base) ∧
    Ready .rearmChannel (asked 0x22 [95]) [] (waiting 0x22 [95] base) ∧ base.channel 95 = none :=
  ⟨ready_of_row rfl rfl (by decide), rfl, ready_of_row rfl rfl (by decide), rfl, ready_of_row rfl rfl (by decide),
   ready_of_row rfl rfl (by decide), rfl, ready_of_row rfl rfl (by decide), ready_of_row rfl rfl (by decide), rfl⟩

theorem test_meets_EnableRamTable :
    let faulted := withEntry0 { ram with ram := .faulted } base
    Ready .enableRam (asked 0x23 [48]) [] (waiting 0x23 [48] base) ∧
    Ready .enableRam (asked 0x23 [47]) [] (waiting 0x23 [47] base) ∧ base.actuator 47 = none ∧
    Ready .enableRam (asked 0x23 [0]) [] (waiting 0x23 [0] faulted) ∧
    (faulted.actuator 0).map (·.ram) = some .faulted ∧ faulted.ramOf .one 0 = false ∧ (feeding 1).ramOf .one 0 = true ∧
    (feeding 1).inService 0 = true ∧ turbine.role ≠ .feedRam :=
  ⟨ready_of_row rfl rfl (by decide), ready_of_row rfl rfl (by decide), rfl, ready_of_row rfl rfl (by decide), rfl,
   by decide, by decide, by decide, by decide⟩

theorem test_meets_HoldRequests :
    let held := base.modFeed .two fun f => { f with holds := f.holds.set .manual true }
    let cheap : State := { base with limits := { base.limits with entries := base.limits.entries.set 8 ⟨1, none⟩ } }
    (Ready .holdFeed (asked 0x30 [u8 Line.two.code]) [] (waiting 0x30 [u8 Line.two.code] base) ∧
      (base.feedOf .two).holds.manual = false ∧ (held.feedOf .two).holds.manual = true) ∧
    Ready .clearHold (asked 0x31 [u8 Line.two.code, 1]) [] (waiting 0x31 [u8 Line.two.code, 1] held) ∧
    (Ready .clearHold (asked 0x31 [u8 Line.one.code, 5]) [] (waiting 0x31 [u8 Line.one.code, 5] cheap) ∧
      (cheap.feedOf .one).holds.emission = true ∧ (∀ e ∈ cheap.log, e.status = .open → e.kind = .halfHour → e.line ≠ .one) ∧
      ((cheap.averagerOf .one).minutes : Int) < cheap.lineLimit .one .budget) ∧
    base.lineLimit .one .budget ≤ ((base.averagerOf .one).minutes : Int) ∧
    (Ready .clearHold (asked 0x31 [u8 Line.one.code, 7]) [] (waiting 0x31 [u8 Line.one.code, 7] base) ∧
      7 ≤ (7#8).toNat) ∧
    (Ready .clearHold (asked 0x31 [u8 Line.one.code, 6]) [] (waiting 0x31 [u8 Line.one.code, 6] base) ∧
      HoldCause.ofCode? (6#8).toNat = some .noRam) :=
  ⟨⟨ready_of_row rfl rfl (by decide), rfl, rfl⟩, ready_of_row rfl rfl (by decide),
   ⟨ready_of_row rfl rfl (by decide), rfl, by decide, by decide⟩, by decide,
   ⟨ready_of_row rfl rfl (by decide), by decide⟩, ⟨ready_of_row rfl rfl (by decide), rfl⟩⟩

/-! ### Requests: trips, runback, averager, capture, attention -/

theorem test_meets_TripRequests :
    let args : List Byte := 1 :: block
    let untripped := base.modTrip .one fun t => { t with causes := ⟨false, false, false, false⟩ }
    let manual := base.modTrip .one fun t => { t with causes := ⟨false, false, false, true⟩ }
    (Ready .trip (asked 0x32 [u8 Line.one.code]) [] (waiting 0x32 [u8 Line.one.code] untripped) ∧
      (untripped.tripOf .one).causes.manual = false ∧ (untripped.tripOf .one).causes.isEmpty = true ∧
      (manual.tripOf .one).causes.manual = true) ∧
    (Ready .tripReset (asked 0x33 args) [] (waiting 0x33 args manual) ∧
      (asked 0x33 args).args.head? = some (u8 Line.one.code) ∧ Confirms (asked 0x33 args) (waiting 0x33 args manual) ∧
      manual.tripRemaining .one = ⟨false, false, false, false⟩) :=
  ⟨⟨ready_of_row rfl rfl (by decide), rfl, rfl, rfl⟩,
   ⟨ready_of_row rfl rfl (by decide), rfl, by unfold Confirms; decide +kernel, by decide⟩⟩

theorem test_meets_StopRunbackEffect :
    let clear : State := { base with runback := { base.runback with lineTrip := ⟨false, false⟩ } }
    Ready .stopRunback (asked 0x34 []) [] (waiting 0x34 [] clear) ∧ (asked 0x34 []).args = [] ∧
    clear.runback.drum = ⟨false, false⟩ ∧ clear.runback.envelope ≠ .idle ∧ base.runback.lineTrip.one = true ∧
    ({ clear.runback with envelope := .idle } : Runback).envelope = .idle :=
  ⟨ready_of_row rfl rfl (by decide), rfl, rfl, by decide, rfl, rfl⟩

theorem test_meets_NewYearAndClearAttention :
    let args : List Byte := 1 :: block
    (Ready .newYear (asked 0x35 args) [] (waiting 0x35 args base) ∧
      (asked 0x35 args).args.head? = some (u8 Line.one.code) ∧ Confirms (asked 0x35 args) (waiting 0x35 args base)) ∧
    (Ready .clearAttention (asked 0x43 (be16 32767)) [] (waiting 0x43 (be16 32767) base) ∧
      (asked 0x43 (be16 32767)).args = be16 32767 ∧ (base.cause .tripOne).status = true) ∧
    (Ready .clearAttention (asked 0x43 (be16 32768)) [] (waiting 0x43 (be16 32768) base) ∧
      (asked 0x43 (be16 32768)).args = be16 32768) ∧
    (Ready .clearAttention (asked 0x43 (be16 0)) [] (waiting 0x43 (be16 0) base) ∧
      ∀ c : Cause, (0 : Nat).testBit (c.code - 1) = true → (base.cause c).status = false) :=
  ⟨⟨ready_of_row rfl rfl (by decide), rfl, by unfold Confirms; decide +kernel⟩,
   ⟨ready_of_row rfl rfl (by decide), rfl, rfl⟩, ⟨ready_of_row rfl rfl (by decide), rfl⟩,
   ⟨ready_of_row rfl rfl (by decide), fun c h => absurd h (by simp)⟩⟩

theorem test_meets_CaptureRequests :
    let record : CaptureRecord := ⟨.clamp, .supervisor, 0, .rewritten, List.replicate 8 1⟩
    let full : State := { base with capture := { base.capture with slots := List.replicate 8 (some record) } }
    (Ready .readCapture (asked 0x41 [7, 63]) [] (waiting 0x41 [7, 63] base) ∧ base.capture.slots.getD 7 none = none) ∧
    (Ready .readCapture (asked 0x41 [7, 8]) [] (waiting 0x41 [7, 8] full) ∧
      full.capture.slots.getD 7 none = some record ∧ (8#8).toNat ≤ record.bytes.length ∧
      record.bytes.length < (9#8).toNat) ∧
    Ready .releaseCapture (asked 0x42 [7]) [] (waiting 0x42 [7] full) ∧
    Ready .readCapture (asked 0x41 [8, 0]) [] (waiting 0x41 [8, 0] base) ∧
    Ready .releaseCapture (asked 0x42 [8]) [] (waiting 0x42 [8] base) :=
  ⟨⟨ready_of_row rfl rfl (by decide), rfl⟩, ⟨ready_of_row rfl rfl (by decide), rfl, by decide, by decide⟩,
   ready_of_row rfl rfl (by decide), ready_of_row rfl rfl (by decide), ready_of_row rfl rfl (by decide)⟩

theorem test_meets_ClearPortErrorsEffect :
    Ready .clearPortErrors (asked 0x44 [2]) [] (waiting 0x44 [2] base) ∧ (asked 0x44 [2]).args = [2] ∧
    Ready .clearPortErrors (asked 0x44 [3]) [] (waiting 0x44 [3] base) ∧ 3 ≤ (3#8).toNat :=
  ⟨ready_of_row rfl rfl (by decide), rfl, ready_of_row rfl rfl (by decide), by decide⟩

/-! ### What the part computes, and invariants -/

theorem test_meets_EffectiveValueIsLive :
    (silent .live).channel 1 = some { liveChannel .generic 6 with point := 8 } ∧
    ((withChannel { liveChannel .generic 1 with state := .stale, fallback := some 0 } base).channel 0).map (·.state) =
      some .stale ∧ base.channel 95 = none :=
  ⟨rfl, rfl, rfl⟩

/-- A state with one waiting command, whose step is a next state. -/
def stepping : State := { base with pending := [.transmissionStart .field] }

theorem test_invariant_premises_step : ∃ t, step stepping = .next t := ⟨_, rfl⟩

theorem test_meets_invariants_of_feed :
    stepping.tripsHoldFeed ∧ stepping.budgetHoldsFeed ∧ stepping.limits.entries.length = 52 ∧ stepping.strokesUnheld :=
  ⟨fun l _ => by cases l <;> rfl, fun l => ⟨by cases l <;> rfl, fun _ => by cases l <;> rfl⟩, by decide,
   fun l h => by cases l <;> exact absurd h (by decide)⟩

theorem test_meets_invariants_of_stores :
    stepping.capture.consistent ∧ stepping.queuesBounded ∧ stepping.tablesSized ∧ stepping.logBounded ∧
      stepping.noSinkHoldsFeed :=
  ⟨⟨rfl, rfl, by decide, fun src => by
      have h : stepping.capture.armed.getD src.code true = true := by
        cases src <;> first | rfl | (rename_i n; revert n; decide)
      have hr : stepping.capture.records = [] := by decide
      rw [h, hr]
      simp⟩,
   ⟨fun p => by cases p <;> decide, rfl, by decide, fun l => by cases l <;> decide⟩,
   by unfold State.tablesSized; decide +kernel,
   ⟨by decide, by simp [stepping, base, State.reset, State.afterReset], fun l p => by cases l <;> cases p <;> decide,
    fun h => absurd h (by decide)⟩,
   fun _ l => by cases l <;> decide⟩

theorem test_meets_invariants_of_limits :
    stepping.limitsSound ∧ stepping.commissionSafe ∧ stepping.limits.mode = .commission := by
  have he : ∀ i, stepping.limitEntry i = ⟨0, none⟩ := by
    intro i
    have : ∀ n, (List.replicate 52 (⟨0, none⟩ : LimitEntry)).getD n ⟨0, none⟩ = ⟨0, none⟩ := by
      intro n
      simp only [List.getD_eq_getElem?_getD, List.getElem?_replicate]
      split <;> rfl
    exact this i.index
  refine ⟨⟨by decide, fun i v h => ?_, fun l => ?_⟩, fun _ l => by cases l <;> exact ⟨rfl, rfl⟩, rfl⟩
  · rw [he i] at h
    exact absurd h (by simp)
  · rw [he]

theorem test_meets_invariants_of_dispatch : stepping.ordersSound ∧ stepping.loadBounded := by
  refine ⟨by unfold State.ordersSound; decide, by decide, by decide, by decide +kernel, fun cap _ => ?_⟩
  exact Nat.zero_le _

theorem test_meets_invariants_of_points : stepping.pointsSound := by
  refine ⟨rfl, by decide, fun point x => ⟨fun h => absurd h (by simp [stepping, base, State.reset, State.afterReset]), ?_⟩⟩
  rintro ⟨c, hc, _⟩
  have : (List.replicate 96 (none : Option Channel)).getD x none = none := by
    simp only [List.getD_eq_getElem?_getD, List.getElem?_replicate]
    split <;> rfl
  exact absurd (this.symm.trans hc) (by simp)

end Sys2Proof.Tests
end

section
/-! SUPPORT. Executions of requests: what is placed where a body answers without setting a cause, the form tests of R11
and the search for a confirm block. -/

namespace Sys2Proof.Machine

/-! ### Executions without NOTICEs -/

/-- An execution whose body leaves the attention unit as it stands adds its REPLY and no NOTICE (R180, R187). -/
theorem serve_without_notices {row : Instr} {r : Request} {rest : List Request} {s u : State} {st : Status}
    {data : List Byte} {body : Request → State → Answer} (h : Ready row r rest s)
    (hb : body r (s.beginExecution rest) = ⟨st, data, u.beginExecution rest⟩) (ha : u.attention = s.attention) :
    serve row body s = withReply r rest st data u := by
  rw [serve_of_ready h, hb, noticed_of_attention (by exact ha), placeReply_beginExecution]

/-- A body that refuses leaves the part as it stood, but for the request and its REPLY (R187). -/
theorem serve_refused {row : Instr} {r : Request} {rest : List Request} {s : State} {st : Status}
    {body : Request → State → Answer} (h : Ready row r rest s)
    (hb : body r (s.beginExecution rest) = answer st (s.beginExecution rest)) :
    serve row body s = withReply r rest st [] s :=
  serve_without_notices h hb rfl

/-! ### The form tests of R11 and the confirm block of R12 -/

theorem sized_of_length {n : Nat} {body : List Byte → State → Answer} {r : Request} (s : State)
    (h : r.args.length = n) : sized n body r s = body r.args s := if_pos h

theorem sized_of_other_length {n : Nat} {body : List Byte → State → Answer} {r : Request} (s : State)
    (h : r.args.length ≠ n) : sized n body r s = answer .badRequest s := if_neg h

theorem bindingSized_of_other_length {r : Request} (s : State)
    (h : r.args.length ≠ if indexArg r.args = 0 then 6 else 25) : bindingSized r s = answer .badRequest s := if_neg h

theorem confirmed_of_short {n : Nat} {body : List Byte → State → Answer} {r : Request} (s : State)
    (h : r.args.length < n) : confirmed n body r s = answer .badRequest s := if_pos h

theorem confirmed_not_found {n : Nat} {body : List Byte → State → Answer} {r : Request} {s : State}
    (h : n ≤ r.args.length) (hc : ¬ Confirms r s) :
    confirmed n body r s = answer .badConfirm (captureOffer r.confirmOffer s) := by
  unfold confirmed
  exact (if_neg (Nat.not_lt.mpr h)).trans (if_neg hc)

/-- A request of the right length is answered by its body. -/
theorem serve_sized {row : Instr} {n : Nat} {r : Request} {rest : List Request} {s u : State} {st : Status}
    {data : List Byte} {body : List Byte → State → Answer} (h : Ready row r rest s) (hn : r.args.length = n)
    (hb : body r.args (s.beginExecution rest) = ⟨st, data, u.beginExecution rest⟩) (ha : u.attention = s.attention) :
    serve row (sized n body) s = withReply r rest st data u :=
  serve_without_notices h ((sized_of_length _ hn).trans hb) ha

/-! ### CLEAR_PORT_ERRORS (R6) -/

theorem clearPortErrors_beyond {selection : Byte} (h : 3 ≤ selection.toNat) (s : State) :
    clearPortErrorsBody [selection] s = answer .refusedRange s := by
  obtain ⟨n, hn⟩ := Nat.exists_eq_add_of_le' h
  have hb : byteAt [selection] 0 = n + 3 := hn
  unfold clearPortErrorsBody
  rw [hb]
  rfl

/-! ### READ_TABLE (R189) -/

/-- A run of records fits into 50 bytes. -/
theorem collect_fits (record : Nat → List Byte) (past : Nat) {count i used : Nat} (h : used ≤ 50) :
    used + (collect record past count i used).flatten.length ≤ 50 := by
  induction count generalizing i used with
  | zero => simpa [collect] using h
  | succ count ih =>
    unfold collect
    split_ifs with hp hl
    · simpa using h
    · simpa using h
    · have := ih (i := i + 1) (Nat.not_lt.mp hl)
      rw [List.flatten_cons, List.length_append]
      omega

/-- Records of one size, as many as asked, as there are, and as fit into 50 bytes. -/
theorem collect_of_size {record : Nat → List Byte} {size : Nat} (hs : 0 < size) (hr : ∀ i, (record i).length = size)
    (past count i used : Nat) :
    collect record past count i used =
      (List.range (min (min count ((50 - used) / size)) (past - i))).map fun j => record (i + j) := by
  induction count generalizing i used with
  | zero => simp [collect]
  | succ count ih =>
    unfold collect
    split_ifs with hp hl
    · rw [Nat.sub_eq_zero_of_le hp]
      simp
    · rw [hr] at hl
      have : (50 - used) / size = 0 := Nat.div_eq_of_lt (by omega)
      rw [this]
      simp
    · rw [hr] at hl
      rw [ih, hr]
      have hd : (50 - used) / size = (50 - (used + size)) / size + 1 := by
        rw [← Nat.add_div_right _ hs]
        congr 1
        omega
      have hk : min (min (count + 1) ((50 - used) / size)) (past - i) =
          min (min count ((50 - (used + size)) / size)) (past - (i + 1)) + 1 := by
        omega
      rw [hk, List.range_succ_eq_map, List.map_cons, List.map_map]
      refine congrArg₂ List.cons rfl (List.map_congr_left fun j _ => ?_)
      simp only [Function.comp_apply]
      congr 1
      omega

theorem readTable_refused {table i1 i0 count : Byte} {last : Nat} (s : State) (ht : lastIndex? table.toNat = some last)
    (h : count = 0#8 ∨ last < i1.toNat * 256 + i0.toNat ∨ (table = 5#8 ∧ i1.toNat * 256 + i0.toNat = 0)) :
    readTableBody [table, i1, i0, count] s = answer .refusedRange s := by
  have hb : byteAt [table, i1, i0, count] 3 = 0 ∨ last < u16At [table, i1, i0, count] 1 ∨
      (byteAt [table, i1, i0, count] 0 = 5 ∧ u16At [table, i1, i0, count] 1 = 0) :=
    h.imp (congrArg BitVec.toNat) (Or.imp_right (And.imp_left (congrArg BitVec.toNat)))
  have ht' : lastIndex? (byteAt [table, i1, i0, count] 0) = some last := ht
  unfold readTableBody
  dsimp only
  rw [ht']
  exact if_pos hb

theorem readTable_done {table i1 i0 count : Byte} {last : Nat} (s : State) (ht : lastIndex? table.toNat = some last)
    (hc : count ≠ 0#8) (hf : i1.toNat * 256 + i0.toNat ≤ last)
    (h5 : ¬(table = 5#8 ∧ i1.toNat * 256 + i0.toNat = 0)) :
    let first := i1.toNat * 256 + i0.toNat
    let records := collect (s.tableRecord table.toNat) (s.readable table.toNat last) count.toNat first 0
    readTableBody [table, i1, i0, count] s =
      ⟨.done, be16 (s.nextIndex table.toNat last (first + records.length)) ++ [u8 records.length] ++ records.flatten,
        { s with freeCount := s.freeCount + 1 }⟩ := by
  have hb : ¬(byteAt [table, i1, i0, count] 3 = 0 ∨ last < u16At [table, i1, i0, count] 1 ∨
      (byteAt [table, i1, i0, count] 0 = 5 ∧ u16At [table, i1, i0, count] 1 = 0)) := by
    rintro (h | h | ⟨ht5, h0⟩)
    · exact hc (BitVec.eq_of_toNat_eq h)
    · exact absurd hf (Nat.not_le.mpr h)
    · exact h5 ⟨BitVec.eq_of_toNat_eq ht5, h0⟩
  have ht' : lastIndex? (byteAt [table, i1, i0, count] 0) = some last := ht
  unfold readTableBody
  dsimp only
  rw [ht']
  exact if_neg hb

/-- The data of a run of LIMITS records. -/
theorem limits_run (s : State) (count first : Nat) :
    let records := collect (s.tableRecord 9) (s.readable 9 51) count first 0
    let k := min (min count 10) (52 - first)
    be16 (s.nextIndex 9 51 (first + records.length)) ++ [u8 records.length] ++ records.flatten =
      be16 (if 52 ≤ first + k then 0xFFFF else first + k) ++ [u8 k] ++
        (List.range k).flatMap fun j =>
          let e := s.limits.entries.getD (first + j) ⟨0, none⟩
          sbe16 e.effective ++ sbe16 e.commissioned ++ [if e.override.isSome then 1#8 else 0#8] := by
  intro records k
  have hr : records = (List.range k).map fun j => s.tableRecord 9 (first + j) :=
    collect_of_size (size := 5) (by omega) (fun i => rfl) 52 count first 0
  have hk : records.length = k := by rw [hr, List.length_map, List.length_range]
  have hn : s.nextIndex 9 51 (first + k) = if 52 ≤ first + k then 0xFFFF else first + k := by
    simp [State.nextIndex, Nat.lt_iff_add_one_le]
  rw [hk, hn, hr, ← List.flatMap_def]
  rfl

end Sys2Proof.Machine
end

section
/-! SUPPORT. Attention causes and NOTICEs (R179, R180): what a setting event and a notice occasion change, and the
NOTICEs of an event that sets one cause. -/

namespace Sys2Proof.Machine

/-! ### Reading causes back -/

/-- A cause stands in the list of causes at its code. -/
theorem Cause.all_getD (c : Cause) : Cause.all.getD (c.code - 1) .originLoss = c := by cases c <;> rfl

theorem Cause.code_sub_injective {c c' : Cause} (h : c.code - 1 = c'.code - 1) : c = c' := by
  rw [← c.all_getD, h, c'.all_getD]

theorem Cause.code_sub_lt (c : Cause) : c.code - 1 < 15 := by cases c <;> decide

theorem State.cause_modCause_ne (s : State) {c c' : Cause} (f : CauseRecord → CauseRecord) (h : c' ≠ c) :
    (s.modCause c f).cause c' = s.cause c' := by
  have hn : c.code - 1 ≠ c'.code - 1 := fun hc => h (Cause.code_sub_injective hc).symm
  simp [State.cause, State.modCause, List.getElem?_set_ne hn]

theorem State.cause_modCause_self {s : State} (c : Cause) (f : CauseRecord → CauseRecord)
    (h : s.attention.causes.length = 15) : (s.modCause c f).cause c = f (s.cause c) := by
  have hl : c.code - 1 < s.attention.causes.length := h ▸ c.code_sub_lt
  simp [State.cause, State.modCause, List.getElem?_set_self hl]

/-- What every update of a cause's record keeps of a record, its update keeps of the cause, in a table of any size. -/
theorem State.cause_modCause_keeps {β : Type} (s : State) (c c' : Cause) (f : CauseRecord → CauseRecord)
    (read : CauseRecord → β) (h : ∀ r, read (f r) = read r) :
    read ((s.modCause c f).cause c') = read (s.cause c') := by
  by_cases hc : c' = c
  · subst hc
    by_cases hl : c'.code - 1 < s.attention.causes.length
    · simp [State.cause, State.modCause, List.getElem?_set_self hl, h]
    · simp [State.cause, State.modCause, List.set_eq_of_length_le (Nat.not_lt.mp hl)]
  · rw [s.cause_modCause_ne f hc]

theorem setCause_enable (c c' : Cause) (l : Option Line) (d : Nat) (s : State) :
    ((setCause c l d s).cause c').enable = (s.cause c').enable :=
  s.cause_modCause_keeps c c' _ CauseRecord.enable fun _ => rfl

theorem setCause_noticed (c c' : Cause) (l : Option Line) (d : Nat) (s : State) :
    ((setCause c l d s).cause c').noticed = (s.cause c').noticed :=
  s.cause_modCause_keeps c c' _ CauseRecord.noticed fun _ => rfl

/-! ### One notice occasion -/

/-- The NOTICE that a cause with a held event has next (R180). -/
def State.nextNotice (s : State) (c : Cause) (h : HeldEvent) : Waiting :=
  ⟨s.nextMark, s.originFrame .supervisor (u8 s.attention.station) kindNotice (noticeRecord c h)⟩

theorem State.nextNotice_frame (s : State) (c : Cause) (h : HeldEvent) :
    (s.nextNotice c h).frame.kind = 0x50#8 ∧ (s.nextNotice c h).frame.dest = u8 s.attention.station ∧
      (s.nextNotice c h).frame.src = s.ownStation := ⟨rfl, rfl, rfl⟩

/-- A state with its next NOTICE at the tail of a SUPERVISOR origin queue (R28, R180). -/
def State.withNotice (s : State) (c : Cause) (h : HeldEvent) : State :=
  { s.modPort .supervisor fun q =>
      { q.setOrigin c.priority (q.origin c.priority ++ [s.nextNotice c h]) with seq := (q.seq + 1) % 256 } with
    nextMark := s.nextMark + 1 }

/-- The outcomes of an occasion: no NOTICE is due; the cause is marked as noticed and its NOTICE enters, is lost to a
full queue, or has no held event to tell of. -/
theorem State.offerNotice_cases (s : State) (c : Cause) :
    let marked := s.modCause c fun r => { r with noticed := true }
    (s.noticeDue c = false ∧ s.offerNotice c = (s, false)) ∨
    (∃ h, (s.cause c).held = some h ∧ s.offerNotice c = (marked.withNotice c h, false)) ∨
    s.offerNotice c = (marked, true) ∨ s.offerNotice c = (marked, false) := by
  intro marked
  unfold State.offerNotice
  split
  · dsimp only
    split
    · rename_i h hh
      split
      · rename_i t ht
        refine .inr (.inl ⟨h, hh, ?_⟩)
        unfold State.enterOrigin at ht
        split at ht
        · cases ht
          rfl
        · cases ht
      · exact .inr (.inr (.inl rfl))
    · exact .inr (.inr (.inr rfl))
  · rename_i hn
    exact .inl ⟨by simpa using hn, rfl⟩

/-! ### What NOTICEs may change -/

/-- `t` is `s` once occasions for causes of a list have added at most `n` NOTICEs (R180). -/
structure Noticed (n : Nat) (causes : List Cause) (s t : State) : Prop where
  rest : t.lessNotices = s.lessNotices
  field : t.port .field = s.port .field
  supervisor : ∃ urgent routine seq,
    t.port .supervisor =
      { s.port .supervisor with
        urgent := (s.port .supervisor).urgent ++ urgent
        routine := (s.port .supervisor).routine ++ routine
        seq := seq } ∧
    (urgent ++ routine = [] → seq = (s.port .supervisor).seq) ∧ urgent.length + routine.length ≤ n ∧
    ∀ w ∈ urgent ++ routine,
      w.frame.kind = 0x50#8 ∧ w.frame.dest = u8 s.attention.station ∧ w.frame.src = s.ownStation
  station : t.attention.station = s.attention.station
  enable : ∀ c, (t.cause c).enable = (s.cause c).enable
  others : ∀ c, c ∉ causes → t.cause c = s.cause c

/-- A state that agrees on ports, notice station, enables and other causes has been added no NOTICE. -/
theorem Noticed.of_ports {n : Nat} {causes : List Cause} {s t : State} (rest : t.lessNotices = s.lessNotices)
    (ports : t.ports = s.ports) (station : t.attention.station = s.attention.station)
    (enable : ∀ c, (t.cause c).enable = (s.cause c).enable) (others : ∀ c, c ∉ causes → t.cause c = s.cause c) :
    Noticed n causes s t where
  rest := rest
  field := congrArg (·.get .field) ports
  supervisor := ⟨[], [], (s.port .supervisor).seq, by simp [State.port, ports], fun _ => rfl, by simp, by simp⟩
  station := station
  enable := enable
  others := others

theorem Noticed.refl (n : Nat) (causes : List Cause) (s : State) : Noticed n causes s s :=
  .of_ports rfl rfl rfl (fun _ => rfl) fun _ _ => rfl

theorem Noticed.ownStation {n : Nat} {causes : List Cause} {s t : State} (h : Noticed n causes s t) :
    t.ownStation = s.ownStation :=
  show t.lessNotices.ownStation = s.lessNotices.ownStation by rw [h.rest]

theorem Noticed.trans {n m : Nat} {causes : List Cause} {s t u : State} (h : Noticed n causes s t)
    (h' : Noticed m causes t u) : Noticed (n + m) causes s u where
  rest := h'.rest.trans h.rest
  field := h'.field.trans h.field
  supervisor := by
    obtain ⟨urgent, routine, seq, hp, hseq, hlen, hw⟩ := h.supervisor
    obtain ⟨urgent', routine', seq', hp', hseq', hlen', hw'⟩ := h'.supervisor
    refine ⟨urgent ++ urgent', routine ++ routine', seq', ?_, fun he => ?_, ?_, fun w hmem => ?_⟩
    · rw [hp', hp]
      simp
    · simp only [List.append_eq_nil_iff] at he hseq hseq'
      obtain ⟨⟨hu, hu'⟩, hr, hr'⟩ := he
      rw [hseq' ⟨hu', hr'⟩, hp]
      exact hseq ⟨hu, hr⟩
    · simp only [List.length_append]
      omega
    · rw [← h.ownStation, ← h.station]
      rw [← h.ownStation, ← h.station] at hw
      simp only [List.mem_append] at hmem hw hw'
      rcases hmem with (hm | hm) | (hm | hm)
      · exact hw w (.inl hm)
      · exact hw' w (.inl hm)
      · exact hw w (.inr hm)
      · exact hw' w (.inr hm)
  station := h'.station.trans h.station
  enable c := (h'.enable c).trans (h.enable c)
  others c hc := (h'.others c hc).trans (h.others c hc)

theorem Noticed.mono {n m : Nat} {causes causes' : List Cause} {s t : State} (h : Noticed n causes s t) (hn : n ≤ m)
    (hc : ∀ c ∈ causes, c ∈ causes') : Noticed m causes' s t where
  rest := h.rest
  field := h.field
  supervisor := by
    obtain ⟨urgent, routine, seq, hp, hseq, hlen, hw⟩ := h.supervisor
    exact ⟨urgent, routine, seq, hp, hseq, hlen.trans hn, hw⟩
  station := h.station
  enable := h.enable
  others c hn := h.others c fun h => hn (hc c h)

theorem noticed_modCause {n : Nat} (c : Cause) (f : CauseRecord → CauseRecord) (hf : ∀ r, (f r).enable = r.enable)
    (s : State) : Noticed n [c] s (s.modCause c f) :=
  .of_ports rfl rfl rfl (fun c' => s.cause_modCause_keeps c c' f CauseRecord.enable hf)
    fun _ hc => s.cause_modCause_ne f (List.ne_of_not_mem_cons hc)

theorem noticed_setCause {n : Nat} (c : Cause) (l : Option Line) (d : Nat) (s : State) :
    Noticed n [c] s (setCause c l d s) :=
  noticed_modCause c _ (fun _ => by rfl) s

theorem noticed_withNotice (c : Cause) (h : HeldEvent) (s : State) : Noticed 1 [c] s (s.withNotice c h) where
  rest := rfl
  field := rfl
  supervisor := by
    unfold State.withNotice
    cases c.priority
    case urgent =>
      refine ⟨[s.nextNotice c h], [], ((s.port .supervisor).seq + 1) % 256, ?_, by simp, by simp,
        by simpa using s.nextNotice_frame c h⟩
      simp [State.port, PerPort.get, PerPort.set, Port.setOrigin, Port.origin]
    case routine =>
      refine ⟨[], [s.nextNotice c h], ((s.port .supervisor).seq + 1) % 256, ?_, by simp, by simp,
        by simpa using s.nextNotice_frame c h⟩
      simp [State.port, PerPort.get, PerPort.set, Port.setOrigin, Port.origin]
  station := rfl
  enable _ := rfl
  others _ _ := rfl

theorem noticed_offerNotice (s : State) (c : Cause) : Noticed 1 [c] s (s.offerNotice c).1 := by
  have marked {n : Nat} : Noticed n [c] s (s.modCause c fun r => { r with noticed := true }) :=
    noticed_modCause c _ (fun _ => by rfl) s
  rcases s.offerNotice_cases c with ⟨-, h⟩ | ⟨e, -, h⟩ | h | h <;> rw [h]
  · exact .refl 1 [c] s
  · exact (marked (n := 0)).trans (noticed_withNotice c e _)
  · exact marked
  · exact marked

theorem noticed_noticeLoss (s : State) : Noticed 1 [.originLoss] s (noticeLoss s) := by
  have lost {n : Nat} (s : State) : Noticed n [.originLoss] s (originLoss .supervisor s) :=
    noticed_setCause .originLoss none _ s
  have offered := (lost (n := 0) s).trans (noticed_offerNotice (originLoss .supervisor s) .originLoss)
  unfold noticeLoss
  dsimp only
  split
  · split
    · exact offered.trans (lost (n := 0) _)
    · exact offered
  · exact lost s

theorem noticed_noticeOccasion (c : Cause) (s : State) : Noticed 2 [c, .originLoss] s (noticeOccasion c s) := by
  have offered := noticed_offerNotice s c
  unfold noticeOccasion
  dsimp only
  split
  · exact (offered.mono le_rfl (by simp)).trans ((noticed_noticeLoss _).mono le_rfl (by simp))
  · exact offered.mono one_le_two (by simp)

/-- An occasion keeps what the noticed mark is no part of. -/
theorem noticeOccasion_keeps {β : Type} (c c' : Cause) (s : State) (hc : c' ≠ .originLoss) (read : CauseRecord → β)
    (h : ∀ r : CauseRecord, read { r with noticed := true } = read r) :
    read ((noticeOccasion c s).cause c') = read (s.cause c') := by
  have offered : read ((s.offerNotice c).1.cause c') = read (s.cause c') := by
    have marked := s.cause_modCause_keeps c c' (fun r => { r with noticed := true }) read h
    rcases s.offerNotice_cases c with ⟨-, ho⟩ | ⟨e, -, ho⟩ | ho | ho <;> rw [ho]
    · exact marked
    · exact marked
    · exact marked
  unfold noticeOccasion
  dsimp only
  split
  · rw [(noticed_noticeLoss _).others c' (by simpa using hc), offered]
  · exact offered

/-- An occasion for which no NOTICE is due changes nothing. -/
theorem noticeOccasion_of_not_due {c : Cause} {s : State} (h : s.noticeDue c = false) : noticeOccasion c s = s := by
  simp [noticeOccasion, State.offerNotice, h]

/-- An occasion whose NOTICE is due and has room. -/
theorem noticeOccasion_of_room {c : Cause} {s : State} {e : HeldEvent} (hd : s.noticeDue c = true)
    (he : (s.cause c).held = some e)
    (hr : ((s.port .supervisor).origin c.priority).length < s.originCapacity .supervisor c.priority) :
    noticeOccasion c s = (s.modCause c fun r => { r with noticed := true }).withNotice c e := by
  have hm : (s.modCause c fun r => { r with noticed := true }).enterOrigin .supervisor c.priority
      (u8 s.attention.station) kindNotice (noticeRecord c e) =
        some ((s.modCause c fun r => { r with noticed := true }).withNotice c e) := if_pos hr
  have ho : s.offerNotice c = ((s.modCause c fun r => { r with noticed := true }).withNotice c e, false) := by
    simp only [State.offerNotice, hd, he, hm, if_true]
  simp [noticeOccasion, ho]

/-! ### The NOTICEs of an event that sets one cause -/

/-- An event's NOTICEs depend on the causes that stood before it alone. -/
theorem noticesSince_congr {b b' : State} (h : b.attention = b'.attention) (s : State) :
    noticesSince b s = noticesSince b' s := by
  unfold noticesSince State.cause
  rw [h]

/-- The one occasion of an event that sets one cause: for a status that was clear. -/
theorem noticesSince_setCause (c : Cause) (l : Option Line) (d : Nat) {b s : State} (h : s.attention = b.attention) :
    noticesSince b (setCause c l d s) =
      if !(s.cause c).status && ((setCause c l d s).cause c).status then noticeOccasion c (setCause c l d s)
      else setCause c l d s := by
  have hp : ∀ c', (!(s.cause c').status && ((setCause c l d s).cause c').status) =
      ((!(s.cause c).status && ((setCause c l d s).cause c).status) && c' == c) := by
    intro c'
    by_cases hc : c' = c
    · subst hc
      simp
    · have : (setCause c l d s).cause c' = s.cause c' := s.cause_modCause_ne _ hc
      simp [this, hc]
  have hall : Cause.all.filter (· == c) = [c] := by cases c <;> rfl
  rw [noticesSince_congr h.symm]
  unfold noticesSince
  rw [List.filter_congr fun c' _ => hp c']
  cases !(s.cause c).status && ((setCause c l d s).cause c).status
  case true =>
    simp only [Bool.true_and, hall]
    rfl
  case false =>
    simp only [Bool.false_and, List.filter_false]
    rfl

/-- Where a cause is set already, or its NOTICE could not be due, an event that sets it again builds none. -/
theorem noticesSince_setCause_of_not_due {c : Cause} {l : Option Line} {d : Nat} {b s : State}
    (h : s.attention = b.attention)
    (hn : (s.cause c).status = true ∨ (s.cause c).enable = false ∨ (s.cause c).noticed = true ∨
      s.attention.station = 0) :
    noticesSince b (setCause c l d s) = setCause c l d s := by
  rw [noticesSince_setCause c l d h]
  split
  · rename_i hs
    refine noticeOccasion_of_not_due ?_
    have hst : (setCause c l d s).attention.station = s.attention.station := rfl
    rcases hn with hn | hn | hn | hn
    · simp [hn] at hs
    · simp [State.noticeDue, setCause_enable, hn]
    · simp [State.noticeDue, setCause_noticed, hn]
    · simp [State.noticeDue, hst, hn]
  · rfl

theorem noticed_noticesSince_setCause (c : Cause) (l : Option Line) (d : Nat) {b s : State}
    (h : s.attention = b.attention) :
    Noticed 2 [c, .originLoss] s (noticesSince b (setCause c l d s)) := by
  have set {n : Nat} : Noticed n [c, .originLoss] s (setCause c l d s) :=
    (noticed_setCause c l d s).mono le_rfl (by simp)
  rw [noticesSince_setCause c l d h]
  split
  · exact (set (n := 0)).trans (noticed_noticeOccasion c _)
  · exact set

theorem sameButNotices_of_lessNotices {s t : State} (h : t.lessNotices = s.lessNotices) : SameButNotices s t := by
  have : { t.lessNotices with ports := s.ports, attention := s.attention, nextMark := s.nextMark } =
      { s.lessNotices with ports := s.ports, attention := s.attention, nextMark := s.nextMark } := by rw [h]
  exact this

/-- An event that sets one cause changes nothing else but what its NOTICEs may (R180). -/
theorem onlyNotices_noticesSince_setCause (c : Cause) (l : Option Line) (d : Nat) {b s : State}
    (h : s.attention = b.attention) (hc : c ≠ .originLoss) :
    OnlyNotices [c] s (noticesSince b (setCause c l d s)) := by
  have hn := noticed_noticesSince_setCause c l d h
  refine ⟨sameButNotices_of_lessNotices hn.rest, hn.field, hn.supervisor, hn.station, hn.enable,
    fun c' h1 h2 => hn.others c' (by simpa using ⟨by simpa using h1, h2⟩), fun hdue => ?_⟩
  rw [noticesSince_setCause_of_not_due h (hdue c List.mem_cons_self)]
  exact ⟨rfl, rfl, fun _ => s.cause_modCause_ne _ hc.symm⟩

/-- What a set cause reads after the event that set it. -/
theorem cause_noticesSince_setCause (c : Cause) (l : Option Line) (d : Nat) {b s : State}
    (h : s.attention = b.attention) (hc : c ≠ .originLoss) (hl : s.attention.causes.length = 15) :
    ((noticesSince b (setCause c l d s)).cause c).status = true ∧
      ((noticesSince b (setCause c l d s)).cause c).held = some ⟨l, s.plantTime, d⟩ := by
  have hset : (setCause c l d s).cause c = { s.cause c with status := true, held := some ⟨l, s.plantTime, d⟩ } :=
    State.cause_modCause_self c _ hl
  rw [noticesSince_setCause c l d h]
  split
  · rw [noticeOccasion_keeps c c _ hc CauseRecord.status fun _ => rfl,
      noticeOccasion_keeps c c _ hc CauseRecord.held fun _ => rfl, hset]
    exact ⟨rfl, rfl⟩
  · rw [hset]
    exact ⟨rfl, rfl⟩

/-! ### A capture offer as an event (R174) -/

/-- An event that is one offer changes the capture store and what setting a cause may change. -/
theorem lessCapture_offerEvent (o : CaptureRecord) (s : State) :
    (asEvent (captureOffer o) s).lessCapture = s.lessCapture :=
  (lessCapture_of_notices (lessNotices_noticesSince s _)).trans (lessCapture_captureOffer o s)

theorem offerEvent_of_disarmed {o : CaptureRecord} {s : State} (h : s.armed o.source = false) :
    asEvent (captureOffer o) s = s := by
  unfold asEvent
  rw [captureOffer_of_disarmed h]
  exact noticesSince_of_attention rfl

/-- An event that is one offer, where the store takes it and the cause named is set. -/
theorem offerEvent_of_taken {o : CaptureRecord} {s : State} {c : Cause} {d : Nat} {g : CaptureStore → CaptureStore}
    (h : captureOffer o s = setCause c none d (s.modCapture g)) (hc : c ≠ .originLoss) :
    let t := asEvent (captureOffer o) s
    OnlyNotices [c] { s with capture := t.capture } t ∧ t.capture = g s.capture ∧
      (s.attention.causes.length = 15 →
        (t.cause c).status = true ∧ (t.cause c).held = some ⟨none, s.plantTime, d⟩) := by
  intro t
  have ht : t = noticesSince s (setCause c none d (s.modCapture g)) := congrArg (noticesSince s) h
  have hu : (s.modCapture g).attention = s.attention := rfl
  have hcap : t.capture = g s.capture := by
    rw [ht]
    exact congrArg State.capture (noticed_noticesSince_setCause c none d hu).rest
  refine ⟨?_, hcap, fun hl => ?_⟩
  · rw [hcap, ht]
    exact onlyNotices_noticesSince_setCause c none d hu hc
  · rw [ht]
    exact cause_noticesSince_setCause c none d hu hc hl

/-- A request whose confirm block is not found: its frame is offered, and BAD_CONFIRM placed behind the NOTICEs. -/
theorem serve_not_confirmed {row : Instr} {n : Nat} {r : Request} {rest : List Request} {s : State}
    (body : List Byte → State → Answer) (h : Ready row r rest s) (hn : n ≤ r.args.length) (hc : ¬ Confirms r s) :
    serve row (confirmed n body) s = withReply r rest .badConfirm []
      (asEvent (captureOffer r.confirmOffer) (s.beginExecution rest)) := by
  have hreq : (asEvent (captureOffer r.confirmOffer) (s.beginExecution rest)).requests = rest :=
    congrArg State.requests (lessCapture_offerEvent r.confirmOffer (s.beginExecution rest))
  rw [serve_of_ready h, confirmed_not_found (s := s.beginExecution rest) hn hc, placeReply_eq_withReply]
  exact congrArg (fun q => withReply r q .badConfirm [] _) hreq

end Sys2Proof.Machine
end

section
/-! SUPPORT. What the jobs' handling of channel updates leaves as it stands (R56, R57): the blocks that no job writes,
and how many frames wait in each transit queue. -/

namespace Sys2Proof.Machine

/-! ### Erasures and orders left open -/

theorem inAnyOrder_keeps {β : Type} (erase : State → β) (hc : ∀ s n, erase (s.choose n).2 = erase s)
    (acts : List (State → State)) (ha : ∀ act ∈ acts, ∀ s, erase (act s) = erase s) (s : State) :
    erase (inAnyOrder acts s) = erase s :=
  inAnyOrder_invariant (fun t => erase t = erase s) (fun t n h => (hc t n).trans h) acts
    (fun act hact t h => (ha act hact t).trans h) s rfl

theorem deliver_keeps {β : Type} (erase : State → β) (hc : ∀ s n, erase (s.choose n).2 = erase s)
    (queues : List (List (State → State))) (ha : ∀ q ∈ queues, ∀ act ∈ q, ∀ s, erase (act s) = erase s) (s : State) :
    erase (deliver queues s) = erase s :=
  deliver_invariant (fun t => erase t = erase s) (fun t n h => (hc t n).trans h) queues
    (fun q hq act hact t h => (ha q hq act hact t).trans h) s rfl

/-- The kinds of action that channel updates can have the jobs take, each of which keeps an erasure (R57). -/
structure JobsKeep {β : Type} (erase : State → β) : Prop where
  choose : ∀ s n, erase (State.choose s n).2 = erase s
  furnace : ∀ l s, erase (evalFurnace l s) = erase s
  position : ∀ l e v fresh s, erase (positionUpdate l e v fresh s) = erase s
  sample : ∀ l p v fresh s, erase (sample l p v fresh s) = erase s
  steam : ∀ s, erase (dispatchSteam s) = erase s
  turbine : ∀ s, erase (dispatchTurbine s) = erase s
  bypass : ∀ s, erase (dispatchBypass s) = erase s
  drum : ∀ l s, erase (runbackDrum l s) = erase s
  cap : ∀ s, erase (capTaken s) = erase s
  trip : ∀ l fromReading s, erase (drumTest l fromReading s) = erase s

section
variable {β : Type} {erase : State → β} (h : JobsKeep erase)
include h

theorem JobsKeep.of_feed (s : State) (l : Line) (u : Update) :
    ∀ act ∈ s.feedDeliveries l u, ∀ t, erase (act t) = erase t := by
  intro act hact
  unfold State.feedDeliveries at hact
  rcases List.mem_append.mp hact with hf | hp
  · split at hf
    · rw [List.mem_singleton.mp hf]
      exact h.furnace l
    · cases hf
  · obtain ⟨e, -, rfl⟩ := List.mem_map.mp hp
    exact h.position l e _ _

theorem JobsKeep.of_averager (s : State) (l : Line) (u : Update) :
    ∀ act ∈ s.averagerDeliveries l u, ∀ t, erase (act t) = erase t := by
  intro act hact
  obtain ⟨p, -, rfl⟩ := List.mem_map.mp hact
  exact h.sample l p _ _

theorem JobsKeep.of_dispatch (s : State) (u : Update) :
    ∀ act ∈ s.dispatchDeliveries u, ∀ t, erase (act t) = erase t := by
  intro act hact
  have : act = dispatchSteam ∨ act = dispatchTurbine ∨ act = dispatchBypass := by
    simp only [State.dispatchDeliveries, List.mem_append, List.mem_ite_nil_right, List.mem_singleton] at hact
    tauto
  rcases this with rfl | rfl | rfl
  · exact h.steam
  · exact h.turbine
  · exact h.bypass

theorem JobsKeep.of_runback (s : State) (u : Update) :
    ∀ act ∈ s.runbackDeliveries u, ∀ t, erase (act t) = erase t := by
  intro act hact
  have : act = runbackDrum .one ∨ act = runbackDrum .two ∨ act = capTaken := by
    simp only [State.runbackDeliveries, runbackDrumActions, List.mem_append, List.mem_ite_nil_right, List.mem_cons,
      List.not_mem_nil, or_false] at hact
    tauto
  rcases this with rfl | rfl | rfl
  · exact h.drum .one
  · exact h.drum .two
  · exact h.cap

theorem JobsKeep.of_trip (s : State) (l : Line) (u : Update) :
    ∀ act ∈ s.tripDeliveries l u, ∀ t, erase (act t) = erase t := by
  intro act hact
  unfold State.tripDeliveries at hact
  split at hact
  · rw [List.mem_singleton.mp hact]
    exact h.trip l _
  · cases hact

/-- What every job's action keeps, the posting and delivery of updates keeps, in whatever order. -/
theorem JobsKeep.postUpdates (goodAt : Option Nat) (fromReading : Bool) (channels : List Nat) (s : State) :
    erase (postUpdates goodAt fromReading channels s) = erase s := by
  refine deliver_keeps erase h.choose _ (fun q hq act hact => ?_) s
  simp only [State.jobQueues, List.mem_cons, List.not_mem_nil, or_false] at hq
  rcases hq with rfl | rfl | rfl | rfl | rfl | rfl | rfl | rfl <;> obtain ⟨u, -, hu⟩ := List.mem_flatMap.mp hact
  · exact h.of_feed s .one u act hu
  · exact h.of_feed s .two u act hu
  · exact h.of_averager s .one u act hu
  · exact h.of_averager s .two u act hu
  · exact h.of_dispatch s u act hu
  · exact h.of_runback s u act hu
  · exact h.of_trip s .one u act hu
  · exact h.of_trip s .two u act hu

theorem JobsKeep.postFrom (goodAt : Option Nat) (fromReading : Bool) (x : Nat) (s : State) :
    erase (postFrom goodAt fromReading x s) = erase s :=
  h.postUpdates goodAt fromReading _ s

end

/-! ### The blocks that jobs write -/

/-- Without the averagers as well as what a trip may change: what the jobs' handling of updates may change. -/
def State.lessUpdates (s : State) : State := { s.lessPlant with averager := ⟨Averager.initial, Averager.initial⟩ }

theorem lessUpdates_of_plant {s t : State} (h : t.lessPlant = s.lessPlant) : t.lessUpdates = s.lessUpdates := by
  have h' : t.lessPlant.lessUpdates = s.lessPlant.lessUpdates := by rw [h]
  exact h'

theorem lessPlant_positionUpdate (l : Line) (e : Nat) (v : Option Int) (fresh : Bool) (s : State) :
    (positionUpdate l e v fresh s).lessPlant = s.lessPlant := by
  unfold positionUpdate
  split
  · split <;> rfl
  · rfl

/-- A change of the sink state changes what two feed admission units and the supply of choices may change. -/
theorem lessPlant_deriveSink (s : State) : (deriveSink s).lessPlant = s.lessPlant := by
  unfold deriveSink
  dsimp only
  split
  · rfl
  · refine (inAnyOrder_keeps State.lessPlant lessPlant_choose _ (fun act hact t => ?_) _).trans rfl
    simp only [List.mem_cons, List.not_mem_nil, or_false] at hact
    rcases hact with rfl | rfl
    · exact lessPlant_of_feed (lessFeed_sinkChange .one t)
    · exact lessPlant_of_feed (lessFeed_sinkChange .two t)

theorem lessPlant_dispatchTurbine (s : State) : (dispatchTurbine s).lessPlant = s.lessPlant :=
  (lessPlant_of_load (lessLoad_recomputeAllowed _ _)).trans (lessPlant_deriveSink _)

theorem lessPlant_capTaken (s : State) : (capTaken s).lessPlant = s.lessPlant := lessPlant_of_load (lessLoad_capTaken s)

theorem lessPlant_recordTrip (l : Line) (c : TripCause) (s : State) : (recordTrip l c s).lessPlant = s.lessPlant := by
  unfold recordTrip
  split <;> rfl

/-- What a change of a trip cause set between empty and non-empty is posted to changes no more than a trip may. -/
theorem lessPlant_tripPosts (l : Line) (tripped : Bool) :
    ∀ act ∈ tripPosts l tripped, ∀ s : State, (act s).lessPlant = s.lessPlant := by
  intro act hact s
  simp only [tripPosts, List.mem_cons, List.not_mem_nil, or_false] at hact
  rcases hact with rfl | rfl
  · split
    · exact lessPlant_of_feed (lessFeed_addHold l _ s)
    · exact lessPlant_of_feed (lessFeed_removeHold l _ s)
  · exact (lessPlant_capTaken _).trans (lessPlant_condition _ _ s)

theorem lessPlant_addTripCause (l : Line) (c : TripCause) (s : State) :
    (addTripCause l c s).lessPlant = s.lessPlant := by
  unfold addTripCause
  split
  · exact (inAnyOrder_keeps State.lessPlant lessPlant_choose _ (lessPlant_tripPosts l true) _).trans
      (lessPlant_recordTrip l c s)
  · exact lessPlant_recordTrip l c s

theorem lessPlant_drumTest (l : Line) (fromReading : Bool) (s : State) :
    (drumTest l fromReading s).lessPlant = s.lessPlant := by
  unfold drumTest
  split
  · split
    · refine (lessPlant_addTripCause l _ _).trans ?_
      split <;> rfl
    · rfl
  · rfl

theorem lessUpdates_setBand (l : Line) (p : Pollutant) (b : Fin 3) (s : State) :
    (setBand l p b s).lessUpdates = s.lessUpdates := by
  unfold setBand
  dsimp only
  split
  · split
    · rfl
    · exact (lessUpdates_of_plant (lessPlant_of_origins (lessOrigins_reagentBandChange _ _ _ _ _))).trans rfl
  · rfl

/-- A sample changes the averager, and what the rewrites and SETs of a changed band may change. -/
theorem lessUpdates_sample (l : Line) (p : Pollutant) (v : Option Int) (fresh : Bool) (s : State) :
    (sample l p v fresh s).lessUpdates = s.lessUpdates := by
  unfold sample
  split
  · split
    · exact (lessUpdates_setBand l p _ _).trans rfl
    · rfl
  · rfl

/-- Updates change nothing of the blocks that no job writes. -/
theorem jobsKeep_lessUpdates : JobsKeep State.lessUpdates where
  choose s n := lessUpdates_of_plant (lessPlant_choose s n)
  furnace l s := lessUpdates_of_plant (lessPlant_of_feed (lessFeed_evalFurnace l s))
  position l e v fresh s := lessUpdates_of_plant (lessPlant_positionUpdate l e v fresh s)
  sample := lessUpdates_sample
  steam s := lessUpdates_of_plant (lessPlant_of_load (lessLoad_dispatchSteam s))
  turbine s := lessUpdates_of_plant (lessPlant_dispatchTurbine s)
  bypass s := lessUpdates_of_plant (lessPlant_deriveSink s)
  drum _ s := lessUpdates_of_plant (lessPlant_condition _ _ s)
  cap s := lessUpdates_of_plant (lessPlant_capTaken s)
  trip l fromReading s := lessUpdates_of_plant (lessPlant_drumTest l fromReading s)

/-! ### Transit queues under what is originated and rewritten -/

/-- How many frames wait in each transit queue. -/
def State.transitSizes (s : State) : PerPort Nat :=
  ⟨(s.port .field).transit.length, (s.port .supervisor).transit.length⟩

theorem transitSizes_get (s : State) (p : PortId) : s.transitSizes.get p = (s.port p).transit.length := by
  cases p <;> rfl

theorem transitSizes_of_ports {s t : State} (h : t.ports = s.ports) : t.transitSizes = s.transitSizes := by
  simp only [State.transitSizes, State.port, h]

theorem transitSizes_modPort (s : State) (p : PortId) {f : Port → Port}
    (h : ∀ q, (f q).transit.length = q.transit.length) : (s.modPort p f).transitSizes = s.transitSizes := by
  cases p <;> simp [State.transitSizes, State.port_modPort, h]

@[simp] theorem Port.setOrigin_transit (q : Port) (pr : Priority) (ws : List Waiting) :
    (q.setOrigin pr ws).transit = q.transit := by
  cases pr <;> rfl

theorem ports_setLast (s : State) (n : Nat) (v : Int) (m : Nat) : (s.setLast n v m).ports = s.ports := by
  unfold State.setLast
  split
  · split <;> rfl
  · rfl

theorem ports_reportRewrites (s : State) (n : Nat) (b : Bound) (marks : List Nat) :
    (s.reportRewrites n b marks).ports = s.ports := by
  unfold State.reportRewrites
  split
  · split
    · split
      · split <;> rfl
      · rfl
    · rfl
  · rfl

theorem transitSizes_enterOrigin {s t : State} {p : PortId} {pr : Priority} {dest kind : Byte} {payload : List Byte}
    (h : s.enterOrigin p pr dest kind payload = some t) : t.transitSizes = s.transitSizes := by
  unfold State.enterOrigin at h
  split at h
  · cases h
    cases p <;> cases pr <;> rfl
  · cases h

theorem transitSizes_commandEntered (s : State) (pr : Priority) (c : Command) (m : Nat) :
    (s.commandEntered pr c m).transitSizes = s.transitSizes := by
  have entered : (match c.verb with | .set => s.setLast c.number c.value m | _ => s).ports = s.ports := by
    split
    · exact ports_setLast s c.number c.value m
    · rfl
  unfold State.commandEntered
  dsimp only
  split
  · exact (transitSizes_modPort _ .field fun _ => rfl).trans (transitSizes_of_ports entered)
  · exact transitSizes_of_ports entered

theorem transitSizes_originateCommand (pr : Priority) (c : Command) (s : State) :
    (originateCommand pr c s).transitSizes = s.transitSizes := by
  unfold originateCommand
  split
  · exact (transitSizes_commandEntered _ pr c _).trans (transitSizes_modPort s .field fun q => by simp)
  · split
    · rename_i h
      exact (transitSizes_commandEntered _ pr c _).trans (transitSizes_enterOrigin h)
    · rfl

/-- A rewrite changes waiting frames, and removes none. -/
theorem transitSizes_rewrite (s : State) (n : Nat) (b : Bound) : (s.rewrite n b).1.transitSizes = s.transitSizes :=
  (transitSizes_of_ports (ports_reportRewrites _ n b _)).trans
    (transitSizes_modPort s .field fun _ => List.length_map _)

theorem transitSizes_originate (e : Nat) (v : Verb) (x : Int) (pr : Priority) (s : State) :
    (originate e v x pr s).transitSizes = s.transitSizes := by
  unfold originate
  split
  · exact transitSizes_originateCommand _ _ s
  · rfl

theorem transitSizes_floorRise (e : Nat) (f : Int) (s : State) : (floorRise e f s).transitSizes = s.transitSizes := by
  unfold floorRise
  split
  · rename_i a _
    have rewritten := transitSizes_rewrite s a.number (.lower f)
    dsimp only
    split
    · split
      · exact (transitSizes_originate _ _ _ _ _).trans rewritten
      · exact rewritten
    · exact rewritten
  · rfl

theorem transitSizes_reagentBandChange (l : Line) (r : Reagent) (b b' : Fin 3) (s : State) :
    (reagentBandChange l r b b' s).transitSizes = s.transitSizes := by
  unfold reagentBandChange
  apply inTurn_keeps
  intro i s
  split
  · split
    · exact transitSizes_floorRise _ _ _
    · rfl
  · rfl

theorem transitSizes_turbineEnforce (n : Nat) (pr : Priority) (s : State) :
    (turbineEnforce n pr s).transitSizes = s.transitSizes := by
  unfold turbineEnforce
  split
  · rename_i a _
    have rewritten := transitSizes_rewrite s a.number (.upper n)
    dsimp only
    split
    · split
      · split
        · exact (transitSizes_originate _ _ _ _ _).trans rewritten
        · exact rewritten
      · split
        · exact (transitSizes_originate _ _ _ _ _).trans rewritten
        · exact rewritten
    · exact rewritten
  · rfl

theorem transitSizes_followAllowed (s : State) : (followAllowed s).transitSizes = s.transitSizes := by
  unfold followAllowed
  split
  · split
    · rfl
    · exact transitSizes_originate _ _ _ _ s
  · rfl

/-! ### Transit queues under the jobs' actions -/

theorem transitSizes_choose (s : State) (n : Nat) : (s.choose n).2.transitSizes = s.transitSizes := by
  unfold State.choose
  split
  · rfl
  · split <;> rfl

theorem transitSizes_addHold (l : Line) (c : HoldCause) (s : State) :
    (addHold l c s).transitSizes = s.transitSizes := by
  unfold addHold abortStroke
  split
  · rfl
  · split
    · exact transitSizes_originate _ _ _ _ (s.modFeed l fun f => { f with holds := f.holds.set c true })
    · rfl

theorem transitSizes_releaseCheck (l : Line) (s : State) : (releaseCheck l s).transitSizes = s.transitSizes := by
  unfold releaseCheck release
  split
  · split
    · exact (transitSizes_originate _ _ _ _ _ :)
    · rfl
  · rfl

theorem transitSizes_removeHold (l : Line) (c : HoldCause) (s : State) :
    (removeHold l c s).transitSizes = s.transitSizes := by
  unfold removeHold
  split
  · exact transitSizes_releaseCheck l _
  · rfl

theorem transitSizes_evalFurnace (l : Line) (s : State) : (evalFurnace l s).transitSizes = s.transitSizes := by
  have held := transitSizes_addHold l .furnaceCold s
  have cold : (if (s.feedOf l).holds.furnaceCold then s
      else
        match ((addHold l .furnaceCold s).binding l).auxBurner with
        | some e => if 0 < ((addHold l .furnaceCold s).feedOf l).bed
            then originate e .set 1 .routine (addHold l .furnaceCold s) else addHold l .furnaceCold s
        | none => addHold l .furnaceCold s).transitSizes = s.transitSizes := by
    split
    · rfl
    · split
      · split
        · exact (transitSizes_originate _ _ _ _ _).trans held
        · exact held
      · exact held
  unfold evalFurnace
  dsimp only
  split
  · exact cold
  · split
    · exact cold
    · split
      · exact transitSizes_removeHold l _ s
      · rfl

theorem transitSizes_positionUpdate (l : Line) (e : Nat) (v : Option Int) (fresh : Bool) (s : State) :
    (positionUpdate l e v fresh s).transitSizes = s.transitSizes := by
  unfold positionUpdate
  split
  · split <;> rfl
  · rfl

theorem transitSizes_setBand (l : Line) (p : Pollutant) (b : Fin 3) (s : State) :
    (setBand l p b s).transitSizes = s.transitSizes := by
  unfold setBand
  dsimp only
  split
  · split
    · rfl
    · exact transitSizes_reagentBandChange _ _ _ _ _
  · rfl

theorem transitSizes_sample (l : Line) (p : Pollutant) (v : Option Int) (fresh : Bool) (s : State) :
    (sample l p v fresh s).transitSizes = s.transitSizes := by
  unfold sample
  split
  · split
    · exact transitSizes_setBand l p _ _
    · rfl
  · rfl

theorem transitSizes_recomputeAllowed (pr : Priority) (s : State) :
    (recomputeAllowed pr s).transitSizes = s.transitSizes := by
  have follow : ∀ t : State, (if t.dispatch.follow then followAllowed t else t).transitSizes = t.transitSizes := by
    intro t
    split
    · exact transitSizes_followAllowed t
    · rfl
  unfold recomputeAllowed
  dsimp only
  split
  · rfl
  · split
    · exact (follow _).trans (transitSizes_turbineEnforce _ _ _)
    · exact follow _

theorem transitSizes_sinkChange (l : Line) (s : State) : (sinkChange l s).transitSizes = s.transitSizes := by
  unfold sinkChange
  split
  · exact transitSizes_addHold l _ s
  · exact (transitSizes_releaseCheck l _).trans (transitSizes_removeHold l _ s)

theorem transitSizes_deriveSink (s : State) : (deriveSink s).transitSizes = s.transitSizes := by
  unfold deriveSink
  dsimp only
  split
  · rfl
  · refine inAnyOrder_keeps State.transitSizes transitSizes_choose _ (fun act hact t => ?_) _
    simp only [List.mem_cons, List.not_mem_nil, or_false] at hact
    rcases hact with rfl | rfl
    · exact transitSizes_sinkChange .one t
    · exact transitSizes_sinkChange .two t

theorem transitSizes_dispatchTurbine (s : State) : (dispatchTurbine s).transitSizes = s.transitSizes :=
  (transitSizes_recomputeAllowed _ _).trans (transitSizes_deriveSink _)

theorem transitSizes_capTaken (s : State) : (capTaken s).transitSizes = s.transitSizes := by
  unfold capTaken
  split
  · rfl
  · exact transitSizes_recomputeAllowed _ _

theorem transitSizes_condition (c : Condition) (b : Bool) (s : State) :
    (condition c b s).transitSizes = s.transitSizes := by
  unfold condition
  split
  · rfl
  · dsimp only
    split
    · exact transitSizes_capTaken _
    · split <;> rfl

theorem transitSizes_recordTrip (l : Line) (c : TripCause) (s : State) :
    (recordTrip l c s).transitSizes = s.transitSizes := by
  unfold recordTrip
  split <;> rfl

theorem transitSizes_addTripCause (l : Line) (c : TripCause) (s : State) :
    (addTripCause l c s).transitSizes = s.transitSizes := by
  unfold addTripCause
  split
  · refine (inAnyOrder_keeps State.transitSizes transitSizes_choose _ (fun act hact t => ?_) _).trans
      (transitSizes_recordTrip l c s)
    simp only [tripPosts, List.mem_cons, List.not_mem_nil, or_false] at hact
    rcases hact with rfl | rfl
    · exact transitSizes_addHold l .tripped t
    · exact (transitSizes_capTaken _).trans (transitSizes_condition _ _ t)
  · exact transitSizes_recordTrip l c s

theorem transitSizes_drumTest (l : Line) (fromReading : Bool) (s : State) :
    (drumTest l fromReading s).transitSizes = s.transitSizes := by
  unfold drumTest
  split
  · split
    · refine (transitSizes_addTripCause l _ _).trans ?_
      split <;> rfl
    · rfl
  · rfl

/-- Updates add no frame to a transit queue and take none from it. -/
theorem jobsKeep_transitSizes : JobsKeep State.transitSizes where
  choose := transitSizes_choose
  furnace := transitSizes_evalFurnace
  position := transitSizes_positionUpdate
  sample := transitSizes_sample
  steam _ := transitSizes_recomputeAllowed _ _
  turbine := transitSizes_dispatchTurbine
  bypass := transitSizes_deriveSink
  drum _ _ := transitSizes_condition _ _ _
  cap := transitSizes_capTaken
  trip := transitSizes_drumTest

end Sys2Proof.Machine
end

section
/-! SUPPORT. Frames on the link and their arrival (R1 to R5, R21 to R27, R83 to R88): the bytes of a frame read back,
the checks, the deciding slot, what the end of an arrival leaves. -/

namespace Sys2Proof.Machine

/-! ### Bytes read back -/

theorem u8_toNat (n : Nat) : (u8 n).toNat = n % 256 := BitVec.toNat_ofNat n 8

/-- A two-byte field reads back, whatever stands before and behind it. -/
theorem u16At_be16 (before after : List Byte) {n : Nat} (h : n < 65536) :
    u16At (before ++ (be16 n ++ after)) before.length = n := by
  have high : byteAt (before ++ (be16 n ++ after)) before.length = n / 256 % 256 := by simp [byteAt, be16, u8_toNat]
  have low : byteAt (before ++ (be16 n ++ after)) (before.length + 1) = n % 256 := by simp [byteAt, be16, u8_toNat]
  rw [u16At, high, low]
  omega

/-- A signed two-byte field reads back, whatever stands before and behind it. -/
theorem s16At_sbe16 (before after : List Byte) {v : Int} (h1 : -32768 ≤ v) (h2 : v ≤ 32767) :
    s16At (before ++ (sbe16 v ++ after)) before.length = v := by
  unfold s16At sbe16
  rw [u16At_be16 before after (BitVec.isLt _), BitVec.ofNat_toNat, BitVec.setWidth_eq, BitVec.toInt_ofInt]
  exact Int.bmod_eq_of_le (by omega) (by omega)

theorem be16_length (n : Nat) : (be16 n).length = 2 := rfl

/-- The reading record of its bytes (R7). -/
theorem readingAt_bytes {point : Nat} {v : Int} (q : Byte) (hp : point < 65536) (h1 : -32768 ≤ v) (h2 : v ≤ 32767) :
    readingAt (be16 point ++ sbe16 v ++ [q]) 0 = ⟨point, v, Quality.ofByte q.toNat⟩ := by
  have hpoint := u16At_be16 [] (sbe16 v ++ [q]) hp
  have hvalue := s16At_sbe16 (be16 point) [q] h1 h2
  rw [List.nil_append, ← List.append_assoc, List.length_nil] at hpoint
  rw [← List.append_assoc, be16_length] at hvalue
  unfold readingAt
  rw [hpoint, Nat.zero_add, hvalue]
  rfl

/-! ### The checks of R2 and R3 -/

theorem Frame.body_length (f : Frame) : f.body.length = f.payload.length + 6 := by
  simp [Frame.body]

theorem Frame.bytes_length (f : Frame) : f.bytes.length = f.payload.length + 8 := by
  simp [Frame.bytes, Frame.body_length, be16_length]

theorem Frame.parse_bytes (f : Frame) : Frame.parse f.bytes = f := by
  have hp : (f.bytes.drop 6).take (f.bytes.length - 8) = f.payload := by
    rw [f.bytes_length]
    simp [Frame.bytes, Frame.body]
  unfold Frame.parse
  rw [hp]
  rfl

theorem Frame.lengthCheck_bytes {f : Frame} (hd : f.dest ≠ 0#8) (hl : f.payload.length ≤ 55) :
    lengthCheck f.bytes = true := by
  have hlen : byteAt f.bytes 5 = f.payload.length := by
    have : byteAt f.bytes 5 = (u8 f.payload.length).toNat := rfl
    rw [this, u8_toNat]
    omega
  have hdest : byteAt f.bytes 0 ≠ 0 := fun h => hd (BitVec.eq_of_toNat_eq h)
  simp [lengthCheck, f.bytes_length, hlen, hl, hdest]

theorem Frame.checkTest_bytes (f : Frame) : checkTest f.bytes = true := by
  have hb : f.bytes.length - 2 = f.body.length := by
    rw [f.bytes_length, f.body_length]
    rfl
  have hc : u16At f.bytes f.body.length = (crc f.body).toNat := by
    have := u16At_be16 f.body [] (crc f.body).isLt
    rwa [List.append_nil] at this
  unfold checkTest
  rw [hb, hc]
  simp [Frame.bytes]

/-! ### Arrivals -/

theorem exec_arrival_of_lengthCheck {p : PortId} {bytes : List Byte} {s : State} (hr : s.resetAsserted = false)
    (hu : (s.port p).linkUp = true) (h : lengthCheck bytes = false) :
    exec (.frameArrival p bytes) s = .next (asEvent (portError .length p) s) := by
  have : frameArrival p bytes s = asEvent (portError .length p) s := by
    simp [frameArrival, unlessHeld, asEvent, hr, hu, h]
  exact congrArg Host.Outcome.next this

theorem exec_arrival_of_checkTest {p : PortId} {bytes : List Byte} {s : State} (hr : s.resetAsserted = false)
    (hu : (s.port p).linkUp = true) (h : lengthCheck bytes = true) (hc : checkTest bytes = false) :
    exec (.frameArrival p bytes) s = .next (asEvent (portError .check p) s) := by
  have : frameArrival p bytes s = asEvent (portError .check p) s := by
    simp [frameArrival, unlessHeld, asEvent, hr, hu, h, hc]
  exact congrArg Host.Outcome.next this

/-- A frame of which the part is not the destination comes to the match table. -/
theorem exec_arrival_of_passing {p : PortId} {f : Frame} {s : State} (hr : s.resetAsserted = false)
    (hu : (s.port p).linkUp = true) (hown : f.dest ≠ s.ownStation) (hd : f.dest ≠ 0#8) (hl : f.payload.length ≤ 55) :
    exec (.frameArrival p f.bytes) s = .next (asEvent (matchFrame p f.bytes f) s) := by
  have : frameArrival p f.bytes s = asEvent (matchFrame p f.bytes f) s := by
    simp [frameArrival, unlessHeld, asEvent, classify, hr, hu, f.parse_bytes, Frame.lengthCheck_bytes hd hl,
      f.checkTest_bytes, hown]
  exact congrArg Host.Outcome.next this

/-- The source of a slot's own offer, where the slot captures (R25). -/
def slotOffer (m : MatchSlot) (n : Nat) : Option CaptureSource :=
  if m.capture then some (.slot (Fin.ofNat 24 n)) else none

/-- The first matching slot decides a frame. -/
theorem matchFrame_of_deciding {p : PortId} {bytes : List Byte} {f : Frame} {before after : List MatchSlot}
    {m : MatchSlot} {s : State} (ht : s.matchTable = before ++ m :: after)
    (hb : ∀ x ∈ before, x.matches p bytes = false) (hm : m.matches p bytes = true) :
    matchFrame p bytes f s = finishArrival p bytes (slotOffer m before.length) (actOn m.action p f s) := by
  have hd : s.decidingSlot p bytes = some before.length := by
    unfold State.decidingSlot
    rw [ht, List.findIdx?_append, List.findIdx?_eq_none_iff.mpr hb, List.findIdx?_cons, hm]
    simp
  have hs : s.matchTable.getD before.length MatchSlot.initial = m := by
    rw [ht]
    simp
  unfold matchFrame
  rw [hd]
  dsimp only
  rw [hs]
  rfl

/-! ### The end of an arrival -/

/-- An offer leaves the ports as they stand. -/
theorem ports_captureOffer (o : CaptureRecord) (s : State) : (captureOffer o s).ports = s.ports := by
  unfold captureOffer
  split
  · split <;> rfl
  · rfl

/-- Without the capture store, what setting a cause may change, and the model's supply of choices. -/
def State.lessOffers (s : State) : State := { s.lessCapture with script := [], freeCount := 0 }

theorem lessOffers_choose (s : State) (n : Nat) : (s.choose n).2.lessOffers = s.lessOffers := by
  unfold State.choose
  split
  · rfl
  · split <;> rfl

theorem ports_choose (s : State) (n : Nat) : (s.choose n).2.ports = s.ports := by
  unfold State.choose
  split
  · rfl
  · split <;> rfl

theorem lessOffers_of_capture {s t : State} (h : t.lessCapture = s.lessCapture) : t.lessOffers = s.lessOffers := by
  have h' : t.lessCapture.lessOffers = s.lessCapture.lessOffers := by rw [h]
  exact h'

/-- What every offer and every choice keeps, the offers of an arrival keep. -/
theorem arrivalOffers_keep {β : Type} (erase : State → β) (hc : ∀ s n, erase (State.choose s n).2 = erase s)
    (ho : ∀ o s, erase (captureOffer o s) = erase s) (p : PortId) (bytes : List Byte) (time : Nat) (d : Disposition)
    (sources : List CaptureSource) (s : State) :
    erase (inAnyOrder (arrivalOffers p bytes time d sources) s) = erase s :=
  inAnyOrder_keeps erase hc _ (fun act hact => by
    obtain ⟨src, -, rfl⟩ := List.mem_map.mp hact
    exact ho _) s

/-- The end of an arrival changes the capture store, the offers owed, and what a port error may change. -/
theorem lessOffers_finishArrival (p : PortId) (bytes : List Byte) (slot : Option CaptureSource) (x : Decided) :
    (finishArrival p bytes slot x).lessOffers = { x.after with tripOffers := 0 }.lessOffers := by
  have offered := arrivalOffers_keep State.lessOffers lessOffers_choose
    (fun o s => lessOffers_of_capture (lessCapture_captureOffer o s)) p bytes x.after.plantTime x.disposition
    (x.sources slot) { x.after with tripOffers := 0 }
  unfold finishArrival
  dsimp only
  split
  · exact (lessOffers_of_capture (lessCapture_of_notices (lessNotices_portError .overrun p _))).trans offered
  · exact offered

/-- The end of the arrival of a frame that is not lost leaves the ports as they stand. -/
theorem ports_finishArrival {p : PortId} {bytes : List Byte} {slot : Option CaptureSource} {x : Decided}
    (h : x.overrun = false) : (finishArrival p bytes slot x).ports = x.after.ports := by
  unfold finishArrival
  dsimp only
  rw [if_neg (by simp [h])]
  exact arrivalOffers_keep State.ports ports_choose ports_captureOffer _ _ _ _ _ _

/-- The end of an arrival that loses no frame and owes no offer of a trip unit. -/
theorem finishArrival_of_unowed {p : PortId} {bytes : List Byte} {slot : Option CaptureSource} {x : Decided}
    (ht : x.after.tripOffers = 0) (ho : x.overrun = false) :
    finishArrival p bytes slot x =
      inAnyOrder (arrivalOffers p bytes x.after.plantTime x.disposition (slot.toList ++ x.source.toList)) x.after := by
  have hs : x.sources slot = slot.toList ++ x.source.toList := by simp [Decided.sources, ht]
  have ha : { x.after with tripOffers := 0 } = x.after := by rw [← ht]
  unfold finishArrival
  rw [hs, ha]
  simp [ho]

end Sys2Proof.Machine
end

section
/-! SUPPORT. Arrivals by what they are taken for: port errors, readings at a SAMPLES slot, commands that the guard
withholds or absorbs (R5, R23, R24, R48 to R51, R85, R88, R95, R97). -/

namespace Sys2Proof.Machine

/-! ### Port errors (R5) -/

/-- A port error as an event: the count, the cause, and what the cause's NOTICE may change. -/
theorem portErrorEvent_sets (k : PortErrorKind) (p : PortId) {s : State} (hl : s.attention.causes.length = 15) :
    let t := asEvent (portError k p) s
    OnlyNotices [.portError] (s.modPort p fun q => { q with errors := q.errors.add k }) t ∧
      (t.cause .portError).status = true ∧ (t.cause .portError).held = some ⟨none, s.plantTime, p.code⟩ :=
  ⟨onlyNotices_noticesSince_setCause .portError none p.code rfl (by decide),
    cause_noticesSince_setCause .portError none p.code
      (s := s.modPort p fun q => { q with errors := q.errors.add k }) rfl (by decide) hl⟩

/-- The NOTICE of a port error event, where one is due and the SUPERVISOR ROUTINE queue has room (R180). -/
theorem portErrorEvent_notice (k : PortErrorKind) (p : PortId) {s : State} (hl : s.attention.causes.length = 15)
    (hstatus : (s.cause .portError).status = false) (henable : (s.cause .portError).enable = true)
    (hnoticed : (s.cause .portError).noticed = false) (hstation : s.attention.station ≠ 0)
    (hreserved : s.reservation = false) (hroom : (s.port .supervisor).routine.length < 16) :
    let t := asEvent (portError k p) s
    (t.cause .portError).noticed = true ∧
      (t.port .supervisor).routine = (s.port .supervisor).routine ++
        [⟨s.nextMark, ⟨u8 s.attention.station, s.ownStation, 0x50#8, u8 (s.port .supervisor).seq, 0x02#8,
          [14, 2] ++ be32 s.plantTime ++ [0] ++ be16 p.code⟩⟩] := by
  intro t
  have hset : (portError k p s).cause .portError =
      { s.cause .portError with status := true, held := some ⟨none, s.plantTime, p.code⟩ } :=
    State.cause_modCause_self (s := s.modPort p fun q => { q with errors := q.errors.add k }) .portError _ hl
  have hroutine : ((portError k p s).port .supervisor).routine = (s.port .supervisor).routine := by cases p <;> rfl
  have hdue : (portError k p s).noticeDue .portError = true := by
    have : (portError k p s).attention.station = s.attention.station := rfl
    simp [State.noticeDue, hset, henable, hnoticed, this, hstation]
  have hheld : ((portError k p s).cause .portError).held = some ⟨none, s.plantTime, p.code⟩ := by rw [hset]
  have hlt : (((portError k p s).port .supervisor).origin Cause.portError.priority).length <
      (portError k p s).originCapacity .supervisor Cause.portError.priority := by
    have : (portError k p s).originCapacity .supervisor Cause.portError.priority = 16 :=
      if_neg (ne_true_of_eq_false hreserved)
    rw [this]
    exact lt_of_eq_of_lt (congrArg List.length hroutine) hroom
  have ht : t = ((portError k p s).modCause .portError fun r => { r with noticed := true }).withNotice .portError
      ⟨none, s.plantTime, p.code⟩ := by
    rw [← noticeOccasion_of_room hdue hheld hlt]
    refine (noticesSince_setCause .portError none p.code
      (s := s.modPort p fun q => { q with errors := q.errors.add k }) rfl).trans (if_pos ?_)
    have : ((s.modPort p fun q => { q with errors := q.errors.add k }).cause .portError).status = false := hstatus
    rw [this]
    exact congrArg CauseRecord.status hset
  rw [ht]
  constructor
  · exact congrArg CauseRecord.noticed (State.cause_modCause_self (s := portError k p s) .portError
      (fun r => { r with noticed := true }) ((List.length_set ..).trans hl))
  · cases p <;> rfl

/-! ### Transit queues -/

/-- NOTICEs stand in origin queues; the transit queues stay as they stand. -/
theorem Noticed.transit {n : Nat} {causes : List Cause} {s t : State} (h : Noticed n causes s t) (p : PortId) :
    (t.port p).transit = (s.port p).transit := by
  cases p
  case field => rw [h.field]
  case supervisor =>
    obtain ⟨urgent, routine, seq, hp, -⟩ := h.supervisor
    rw [hp]

theorem transit_noticesSince (p : PortId) (before s : State) :
    ((noticesSince before s).port p).transit = (s.port p).transit :=
  inTurn_keeps (fun s => (s.port p).transit) _ noticeOccasion (fun c s => (noticed_noticeOccasion c s).transit p) s

theorem transitSizes_noticesSince (before s : State) : (noticesSince before s).transitSizes = s.transitSizes := by
  simp only [State.transitSizes, transit_noticesSince]

/-- What a frame that finds room leaves: it stands at the tail of the transit queue (R26). -/
theorem forwardAs_of_room {p : PortId} {f : Frame} {d : Disposition} {src : Option CaptureSource} {s : State}
    (h : (s.port (PortId.opposite p)).transit.length < 32) :
    (forwardAs p f d src s).overrun = false ∧ ((forwardAs p f d src s).after.port (PortId.opposite p)).transit =
      (s.port (PortId.opposite p)).transit ++ [⟨s.nextMark, f⟩] := by
  have hent := (enterTransit_entered s p f).mpr h
  refine ⟨by simp [forwardAs, hent], ?_⟩
  have hports : (s.enterTransit p f).1.ports = (s.modPort (PortId.opposite p) fun q =>
      { q with transit := q.transit ++ [⟨s.nextMark, f⟩] }).ports := by
    unfold State.enterTransit
    dsimp only
    rw [if_pos h]
    split
    · exact ports_setLast _ _ _ _
    · rfl
  simp [forwardAs, State.port, hports]

/-- A frame that enters a transit queue changes the ports, the frame mark and the last forwarded values. -/
theorem lessOrigins_forwardAs (p : PortId) (f : Frame) (d : Disposition) (src : Option CaptureSource) (s : State) :
    (forwardAs p f d src s).after.lessOrigins = s.lessOrigins := by
  unfold forwardAs State.enterTransit
  dsimp only
  split
  · split
    · exact (lessOrigins_setLast _ _ _ _).trans rfl
    · rfl
  · rfl

/-! ### Reading intake (R7, R48 to R51) -/

/-- What the intake of readings keeps account of: the point map, the channels and the two counts of R48. -/
structure Intake where
  points : List (Nat × Nat)
  channels : List (Option Channel)
  unmapped : Nat
  malformed : Nat

def State.intake (s : State) : Intake := ⟨s.points, s.channels, s.unmapped, s.malformed⟩

/-- What an erasure leaves readable, two states that agree once erased read alike. -/
theorem read_of_erased {β : Type} {read : State → β} (erase : State → State) (hr : ∀ s, read (erase s) = read s)
    {s t : State} (h : erase t = erase s) : read t = read s := by
  rw [← hr t, h, hr s]

theorem intake_noticesSince (before s : State) : (noticesSince before s).intake = s.intake :=
  read_of_erased State.lessNotices (fun _ => rfl) (lessNotices_noticesSince before s)

theorem intake_postFrom (goodAt : Option Nat) (fromReading : Bool) (x : Nat) (s : State) :
    (postFrom goodAt fromReading x s).intake = s.intake :=
  read_of_erased State.lessUpdates (fun _ => rfl) (jobsKeep_lessUpdates.postFrom goodAt fromReading x s)

theorem intake_forwardAs (p : PortId) (f : Frame) (d : Disposition) (src : Option CaptureSource) (s : State) :
    (forwardAs p f d src s).after.intake = s.intake :=
  read_of_erased State.lessOrigins (fun _ => rfl) (lessOrigins_forwardAs p f d src s)

theorem intake_finishArrival (p : PortId) (bytes : List Byte) (slot : Option CaptureSource) (x : Decided) :
    (finishArrival p bytes slot x).intake = x.after.intake :=
  (read_of_erased State.lessOffers (fun _ => rfl) (lessOffers_finishArrival p bytes slot x)).trans rfl

/-- A reading of an unmapped point is counted. -/
theorem intake_takeReading_unmapped {r : Reading} {s : State} (h : s.channelOfPoint r.point = none) :
    (takeReading r s).intake = ⟨s.points, s.channels, satSucc 65535 s.unmapped, s.malformed⟩ := by
  unfold takeReading
  rw [h]
  rfl

/-- A reading of a mapped point is taken at its channel. -/
theorem intake_takeReading_mapped {r : Reading} {s : State} {x : Nat} {c : Channel}
    (h : s.channelOfPoint r.point = some x) (hc : s.channel x = some c) :
    (takeReading r s).intake = ⟨s.points, s.channels.set x (some (c.take r s.plantTime)), s.unmapped, s.malformed⟩ := by
  unfold takeReading
  rw [h]
  dsimp only
  rw [hc]
  exact intake_postFrom _ _ _ _

theorem points_malformed_takeReading (r : Reading) (s : State) :
    (takeReading r s).points = s.points ∧ (takeReading r s).malformed = s.malformed := by
  cases h : s.channelOfPoint r.point with
  | none =>
    have hi := intake_takeReading_unmapped h
    exact ⟨congrArg Intake.points hi, congrArg Intake.malformed hi⟩
  | some x =>
    cases hc : s.channel x with
    | none =>
      have : takeReading r s = s := by
        unfold takeReading
        rw [h]
        dsimp only
        rw [hc]
      rw [this]
      exact ⟨rfl, rfl⟩
    | some c =>
      have hi := intake_takeReading_mapped h hc
      exact ⟨congrArg Intake.points hi, congrArg Intake.malformed hi⟩

theorem transitSizes_takeReading (r : Reading) (s : State) : (takeReading r s).transitSizes = s.transitSizes := by
  unfold takeReading
  split
  · split
    · exact jobsKeep_transitSizes.postFrom _ _ _ _
    · rfl
  · rfl

/-- What every reading's event and the count of a malformed payload keep, the intake of a SAMPLE keeps. -/
theorem takeSample_keeps {β : Type} (erase : State → β) (hm : ∀ s n, erase { s with malformed := n } = erase s)
    (hn : ∀ before s, erase (noticesSince before s) = erase s) (hr : ∀ r s, erase (takeReading r s) = erase s)
    (payload : List Byte) (s : State) : erase (takeSample payload s) = erase s := by
  unfold takeSample
  split
  · exact inTurn_keeps erase _ _ (fun r s => (hn s _).trans (hr r s)) s
  · exact hm s _

/-- A SAMPLE of one reading is one event. -/
theorem takeSample_of_one {payload : List Byte} {r : Reading} (hl : payload.length = 5) (hr : readingAt payload 0 = r)
    (s : State) : takeSample payload s = asEvent (takeReading r) s := by
  subst hr
  have hw : sampleWellFormed payload = true := by simp [sampleWellFormed, hl]
  unfold takeSample
  rw [if_pos hw, readings, hl]
  rfl

theorem takeSample_of_malformed {payload : List Byte} (h : payload.length % 5 ≠ 0 ∨ payload = []) (s : State) :
    takeSample payload s = { s with malformed := satSucc 65535 s.malformed } := by
  have hw : sampleWellFormed payload = false := by
    rcases h with h | h
    · simp [sampleWellFormed, h]
    · simp [sampleWellFormed, h]
  unfold takeSample
  exact if_neg (by simp [hw])

/-- A SAMPLE of one reading of a point that is in no map. -/
theorem intake_takeSample_unmapped {payload : List Byte} {r : Reading} {s : State} (hl : payload.length = 5)
    (hr : readingAt payload 0 = r) (h : s.channelOfPoint r.point = none) :
    (takeSample payload s).intake = ⟨s.points, s.channels, satSucc 65535 s.unmapped, s.malformed⟩ := by
  rw [takeSample_of_one hl hr]
  exact (intake_noticesSince s _).trans (intake_takeReading_unmapped h)

/-- A SAMPLE of one reading of a mapped point. -/
theorem intake_takeSample_mapped {payload : List Byte} {r : Reading} {s : State} {x : Nat} {c : Channel}
    (hl : payload.length = 5) (hr : readingAt payload 0 = r) (h : s.channelOfPoint r.point = some x)
    (hc : s.channel x = some c) : (takeSample payload s).intake =
      ⟨s.points, s.channels.set x (some (c.take r s.plantTime)), s.unmapped, s.malformed⟩ := by
  rw [takeSample_of_one hl hr]
  exact (intake_noticesSince s _).trans (intake_takeReading_mapped h hc)

theorem points_takeSample (payload : List Byte) (s : State) : (takeSample payload s).points = s.points :=
  takeSample_keeps State.points (fun _ _ => rfl) (fun before s => congrArg Intake.points (intake_noticesSince before s))
    (fun r s => (points_malformed_takeReading r s).1) payload s

theorem malformed_takeSample_of_one {payload : List Byte} (hl : payload.length = 5) (s : State) :
    (takeSample payload s).malformed = s.malformed := by
  rw [takeSample_of_one hl rfl]
  exact (congrArg Intake.malformed (intake_noticesSince s _)).trans (points_malformed_takeReading _ s).2

/-- The tables of R49 to R51. -/
theorem Channel.take_eq (c : Channel) (point : Nat) (v : Int) (q : Byte) (time : Nat) :
    let starting := c.state = .stale ∨ c.state = .calibrating
    let leaving := c.state = .warming ∨ c.state = .live ∨ c.state = .stale
    c.take ⟨point, v, Quality.ofByte q.toNat⟩ time =
      if q = 0#8 then
        { c with
          quality := .good, lastTime := time, own := some v, seen := true
          good := if c.state = .warming then c.good + 1 else if starting then 1 else c.good
          state :=
            if c.state = .warming then (if c.warmCount ≤ c.good + 1 then .live else .warming)
            else if starting then (if c.warmCount = 1 then .live else .warming)
            else c.state }
      else if q = 2#8 then
        { c with
          quality := .calibrating, lastTime := time, seen := true
          good := if leaving then 0 else c.good
          state := if leaving then .calibrating else c.state }
      else
        { c with
          quality := .bad, lastTime := time
          good := if c.state = .warming then 0 else c.good } := by
  by_cases h0 : q = 0#8
  · subst h0
    have hq : Quality.ofByte (0#8).toNat = .good := rfl
    rw [hq]
    cases hs : c.state <;> simp [Channel.take, Channel.goodReading, hs]
  · by_cases h2 : q = 2#8
    · subst h2
      have hq : Quality.ofByte (2#8).toNat = .calibrating := rfl
      rw [hq]
      cases hs : c.state <;> simp [Channel.take, Channel.calibratingReading, hs]
    · have hq : Quality.ofByte q.toNat = .bad := by
        unfold Quality.ofByte
        split
        · exact absurd (BitVec.eq_of_toNat_eq ‹_›) h0
        · exact absurd (BitVec.eq_of_toNat_eq ‹_›) h2
        · rfl
      rw [hq]
      cases hs : c.state <;> simp [Channel.take, Channel.badReading, hs, h0, h2]

/-! ### What the guard withholds and absorbs (R24, R85, R88) -/

theorem guardFrame_of_malformed {f : Frame} (h : f.command? = none) (s : State) :
    guardFrame f s = applyVerdict f .withhold s := by
  unfold guardFrame
  rw [h]

theorem guardFrame_of_entry {f : Frame} {c : Command} {e : Nat} {a : Actuator} {s : State} (hc : f.command? = some c)
    (he : s.entryOf c.number = some e) (ha : s.actuator e = some a) :
    guardFrame f s = applyVerdict f (s.roleVerdict a c) s := by
  unfold guardFrame
  rw [hc]
  dsimp only
  rw [he, Option.bind_some, ha]

theorem feedLine_eq_none {s : State} {number : Nat} (h : ∀ l, (s.binding l).feedGroupIs number = false) :
    s.feedLine number = none := by
  simp [State.feedLine, h]

theorem feedLine_eq_some {s : State} {number : Nat} {l : Line} (h : (s.binding l).feedGroupIs number = true)
    (hk : ∀ k, k ≠ l → (s.binding k).feedGroupIs number = false) : s.feedLine number = some l := by
  cases l
  case one => simp [State.feedLine, h]
  case two => simp [State.feedLine, h, hk .one (by decide)]

/-- A command for a feed group in a form that no line takes is withheld. -/
theorem feedGroupVerdict_withhold {s : State} {c : Command}
    (h : (∀ l, (s.binding l).feedGroupIs c.number = false) ∨ c.verb = .set ∨
      (c.verb = .stroke ∧ (c.value < 5 ∨ 100 < c.value))) : s.feedGroupVerdict c = .withhold := by
  unfold State.feedGroupVerdict
  split
  · rename_i l hl hv
    rcases h with h | h | ⟨-, h⟩
    · rw [feedLine_eq_none h] at hl
      cases hl
    · rw [hv] at h
      cases h
    · exact if_neg (by omega)
  · rename_i l hl hv
    rcases h with h | h | ⟨h, -⟩
    · rw [feedLine_eq_none h] at hl
      cases hl
    · rw [hv] at h
      cases h
    · rw [hv] at h
      cases h
  · rfl

/-- The frames of R88: malformed, for a ram, or for a feed group in a form that no line takes. -/
theorem guardFrame_withheld {f : Frame} {s : State}
    (h : f.command? = none ∨
      (∃ c e a, f.command? = some c ∧ s.entryOf c.number = some e ∧ s.actuator e = some a ∧
        (a.role = .feedRam ∨
          (a.role = .feedGroup ∧
            ((∀ l, (s.binding l).feedGroupIs c.number = false) ∨ c.verb = .set ∨
              (c.verb = .stroke ∧ (c.value < 5 ∨ 100 < c.value))))))) :
    guardFrame f s = ⟨{ s with withheld := satSucc 65535 s.withheld }, .withheld, some .withheld, false⟩ := by
  rcases h with h | ⟨c, e, a, hc, he, ha, hform⟩
  · exact guardFrame_of_malformed h s
  · have hv : s.roleVerdict a c = .withhold := by
      unfold State.roleVerdict
      rcases hform with hr | ⟨hr, hform⟩
      · rw [hr]
      · rw [hr]
        exact feedGroupVerdict_withhold hform
    rw [guardFrame_of_entry hc he ha, hv]
    rfl

/-- A feed group's command is answered by its line. -/
theorem guardFrame_of_feedGroup {f : Frame} {c : Command} {e : Nat} {a : Actuator} {s : State}
    (hc : f.command? = some c) (he : s.entryOf c.number = some e) (ha : s.actuator e = some a)
    (hr : a.role = .feedGroup) : guardFrame f s = applyVerdict f (s.feedGroupVerdict c) s := by
  have hv : s.roleVerdict a c = s.feedGroupVerdict c := by
    unfold State.roleVerdict
    rw [hr]
  rw [guardFrame_of_entry hc he ha, hv]

theorem feedGroupVerdict_stroke {s : State} {c : Command} {l : Line} (hl : s.feedLine c.number = some l)
    (hv : c.verb = .stroke) (h1 : 5 ≤ c.value) (h2 : c.value ≤ 100) :
    s.feedGroupVerdict c = .absorbStroke l c.value.toNat := by
  unfold State.feedGroupVerdict
  rw [hl, hv]
  exact if_pos ⟨h1, h2⟩

theorem feedGroupVerdict_stop {s : State} {c : Command} {l : Line} (hl : s.feedLine c.number = some l)
    (hv : c.verb = .stop) : s.feedGroupVerdict c = .absorbStop l := by
  unfold State.feedGroupVerdict
  rw [hl, hv]

/-! ### A STOP to a feed group (R97, R106) -/

theorem setLast_modFeed (s : State) (l : Line) (g : Feed → Feed) (n : Nat) (v : Int) (m : Nat) :
    (s.modFeed l g).setLast n v m = (s.setLast n v m).modFeed l g := by
  have he : (s.modFeed l g).entryOf n = s.entryOf n := rfl
  unfold State.setLast
  rw [he]
  split
  · rename_i i _
    have ha : (s.modFeed l g).actuator i = s.actuator i := rfl
    rw [ha]
    split <;> rfl
  · rfl

theorem commandEntered_modFeed (s : State) (l : Line) (g : Feed → Feed) (pr : Priority) (c : Command) (m : Nat) :
    (s.modFeed l g).commandEntered pr c m = (s.commandEntered pr c m).modFeed l g := by
  unfold State.commandEntered
  rw [setLast_modFeed]
  cases c.verb <;> cases pr <;> rfl

theorem enterOrigin_modFeed (s : State) (l : Line) (g : Feed → Feed) (p : PortId) (pr : Priority) (dest kind : Byte)
    (payload : List Byte) : (s.modFeed l g).enterOrigin p pr dest kind payload =
      (s.enterOrigin p pr dest kind payload).map (·.modFeed l g) := by
  have hp : (s.modFeed l g).port p = s.port p := rfl
  have hc : (s.modFeed l g).originCapacity p pr = s.originCapacity p pr := rfl
  unfold State.enterOrigin
  rw [hp, hc]
  split <;> rfl

/-- An originated command neither reads nor writes a feed admission unit. -/
theorem originateCommand_modFeed (pr : Priority) (c : Command) (s : State) (l : Line) (g : Feed → Feed) :
    originateCommand pr c (s.modFeed l g) = (originateCommand pr c s).modFeed l g := by
  have hp : (s.modFeed l g).port .field = s.port .field := rfl
  unfold originateCommand
  rw [hp, enterOrigin_modFeed]
  split
  · exact commandEntered_modFeed (s.modPort .field fun q => q.setOrigin pr (coalesceInto c (q.origin pr))) l g pr c _
  · cases s.enterOrigin .field pr 255 kindCommand c.bytes with
    | none => rfl
    | some t => exact commandEntered_modFeed t l g pr c _

/-- A STOP to a feed group whose line has no stroke in flight clears the queue. -/
theorem feedStop_of_idle {l : Line} {s : State} (h : ∀ ram target, (s.feedOf l).engine ≠ .inStroke ram target) :
    feedStop l s = { s with feed := s.feed.set l { s.feedOf l with queue := [] } } :=
  abortStroke_of_idle fun ram target => by
    rw [State.feedOf_modFeed_self]
    exact h ram target

/-- A STOP to a feed group whose line has a stroke in flight: its engine settles, and a STOP goes to the ram's entry. -/
theorem feedStop_of_inStroke {l : Line} {s : State} {ram target : Nat}
    (h : (s.feedOf l).engine = .inStroke ram target) :
    feedStop l s = originate ram .stop 0 .urgent { s with
      feed := s.feed.set l { s.feedOf l with
        queue := [], engine := .settling, settleCount := (s.feedOf l).settle } } := by
  have hcleared : ((s.modFeed l fun f => { f with queue := [] }).feedOf l).engine = .inStroke ram target := by
    rw [State.feedOf_modFeed_self]
    exact h
  have hsettled : (s.modFeed l fun f => { f with queue := [] }).modFeed l Feed.toSettling = { s with
      feed := s.feed.set l { s.feedOf l with
        queue := [], engine := .settling, settleCount := (s.feedOf l).settle } } := by
    cases l <;> rfl
  unfold feedStop abortStroke
  rw [hcleared, ← hsettled]
  dsimp only
  unfold originate
  have ha : ((s.modFeed l fun f => { f with queue := [] }).modFeed l Feed.toSettling).actuator ram =
      (s.modFeed l fun f => { f with queue := [] }).actuator ram := rfl
  rw [ha]
  split
  · exact (originateCommand_modFeed _ _ _ _ _).symm
  · rfl

theorem originate_of_entry {e : Nat} {a : Actuator} {v : Verb} {x : Int} {pr : Priority} {s : State}
    (h : s.actuator e = some a) :
    originate e v x pr s = originateCommand pr ⟨a.number, v, if v = .stop then 0 else x⟩ s := by
  unfold originate
  rw [h]

theorem originate_of_empty {e : Nat} {v : Verb} {x : Int} {pr : Priority} {s : State} (h : s.actuator e = none) :
    originate e v x pr s = s := by
  unfold originate
  rw [h]

/-- A STROKE that finds room joins its line's queue, and a release check follows (R95). -/
theorem strokeArrives_of_room {l : Line} {length : Nat} {source seq : Byte} {s : State}
    (h : (s.feedOf l).queue.length < 8) : strokeArrives l length source seq s = releaseCheck l { s with
      feed := s.feed.set l { s.feedOf l with
        queue := (s.feedOf l).queue ++
          [⟨length, source, seq, min 4294967295 (s.plantTime + (s.feedOf l).ttl)⟩] } } := if_pos h

/-- A STROKE that finds its line's queue full is refused (R95). -/
theorem strokeArrives_of_full {l : Line} {length : Nat} {source seq : Byte} {s : State}
    (h : 8 ≤ (s.feedOf l).queue.length) : strokeArrives l length source seq s =
      setCause .strokeRefused (some l) seq.toNat s := if_neg (Nat.not_lt.mpr h)

/-! ### The end of a decided arrival -/

theorem tripOffers_releaseCheck (l : Line) (s : State) : (releaseCheck l s).tripOffers = s.tripOffers :=
  read_of_erased State.lessFeed (fun _ => rfl) (lessFeed_releaseCheck l s)

theorem plantTime_releaseCheck (l : Line) (s : State) : (releaseCheck l s).plantTime = s.plantTime :=
  read_of_erased State.lessFeed (fun _ => rfl) (lessFeed_releaseCheck l s)

theorem tripOffers_originateCommand (pr : Priority) (c : Command) (s : State) :
    (originateCommand pr c s).tripOffers = s.tripOffers :=
  read_of_erased State.lessOrigins (fun _ => rfl) (lessOrigins_originateCommand pr c s)

theorem plantTime_originateCommand (pr : Priority) (c : Command) (s : State) :
    (originateCommand pr c s).plantTime = s.plantTime :=
  read_of_erased State.lessOrigins (fun _ => rfl) (lessOrigins_originateCommand pr c s)

/-- The end of an arrival that loses no frame and owes no offer of a trip unit, as the event of an action. -/
theorem asEvent_finishArrival {p : PortId} {bytes : List Byte} {slot : Option CaptureSource} {x : Decided}
    {s u : State} {act : State → State} (ht : x.after.tripOffers = 0) (ho : x.overrun = false)
    (hu : u.attention = s.attention)
    (hact : inAnyOrder
      (arrivalOffers p bytes x.after.plantTime x.disposition (slot.toList ++ x.source.toList)) x.after = act u) :
    noticesSince s (finishArrival p bytes slot x) = asEvent act u := by
  rw [finishArrival_of_unowed ht ho, hact]
  exact noticesSince_congr hu.symm _

/-- A frame absorbed: what the line's unit does, then the slot's offer, where it captures. -/
theorem asEvent_absorbed {bytes : List Byte} {m : MatchSlot} {n : Nat} {s u : State} {act : State → State}
    (ht : (act u).tripOffers = 0) (htime : (act u).plantTime = s.plantTime) (hu : u.attention = s.attention) :
    noticesSince s (finishArrival .supervisor bytes (slotOffer m n) ⟨act u, .absorbed, none, false⟩) =
      asEvent (fun u => if m.capture then
        captureOffer ⟨.slot (Fin.ofNat 24 n), .supervisor, s.plantTime, .absorbed, bytes⟩ (act u) else act u) u := by
  refine asEvent_finishArrival ht rfl hu ?_
  rw [htime]
  unfold slotOffer
  cases m.capture <;> rfl

/-- A frame withheld: the count, then the offers of the slot, where it captures, and of the guard. -/
theorem asEvent_withheld {bytes : List Byte} {m : MatchSlot} {n : Nat} {s : State} (ht : s.tripOffers = 0) :
    noticesSince s (finishArrival .supervisor bytes (slotOffer m n)
        ⟨{ s with withheld := satSucc 65535 s.withheld }, .withheld, some .withheld, false⟩) =
      asEvent (inAnyOrder (arrivalOffers .supervisor bytes s.plantTime .withheld
        ((slotOffer m n).toList ++ [.withheld]))) { s with withheld := satSucc 65535 s.withheld } :=
  asEvent_finishArrival ht rfl rfl rfl

/-! ### What an arrival comes to -/

/-- The clause of O10 on port errors, for either check. -/
theorem portErrorArrival {p : PortId} {bytes : List Byte} {s : State} {k : PortErrorKind} {e : PortErrors}
    (hl : s.attention.causes.length = 15) (he : e = (s.port p).errors.add k)
    (hx : exec (.frameArrival p bytes) s = .next (asEvent (portError k p) s)) :
    ∃ t, exec (.frameArrival p bytes) s = .next t ∧
      OnlyNotices [.portError] { s with ports := s.ports.set p { s.port p with errors := e } } t ∧
      (t.cause .portError).status = true ∧ (t.cause .portError).held = some ⟨none, s.plantTime, p.code⟩ ∧
      ((s.cause .portError).status = false → (s.cause .portError).enable = true →
        (s.cause .portError).noticed = false → s.attention.station ≠ 0 → s.reservation = false →
        (s.port .supervisor).routine.length < 16 →
        (t.cause .portError).noticed = true ∧
        (t.port .supervisor).routine = (s.port .supervisor).routine ++
          [⟨s.nextMark, ⟨u8 s.attention.station, s.ownStation, 0x50#8, u8 (s.port .supervisor).seq, 0x02#8,
            [14, 2] ++ be32 s.plantTime ++ [0] ++ be16 p.code⟩⟩]) := by
  subst he
  obtain ⟨hn, hstatus, hheld⟩ := portErrorEvent_sets k p hl
  exact ⟨_, hx, hn, hstatus, hheld, portErrorEvent_notice k p hl⟩

/-- The clause of O10 on SAMPLE frames. -/
theorem sampleArrival {p : PortId} {f : Frame} {before after : List MatchSlot} {m : MatchSlot} {s : State}
    (hr : s.resetAsserted = false) (hu : (s.port p).linkUp = true) (hown : f.dest ≠ s.ownStation) (hd : f.dest ≠ 0#8)
    (hl : f.payload.length ≤ 55) (hk : f.kind = 0x10#8) (ht : s.matchTable = before ++ m :: after)
    (hb : ∀ x ∈ before, x.matches p f.bytes = false) (hm : m.matches p f.bytes = true) (ha : m.action = .samples) :
    ∃ t, exec (.frameArrival p f.bytes) s = .next t ∧ t.intake = (takeSample f.payload s).intake ∧
      ((s.port (PortId.opposite p)).transit.length < 32 →
        ∃ mark sent, (t.port (PortId.opposite p)).transit = sent ++ [⟨mark, f⟩]) := by
  have hact : actOn m.action p f s = forwardAs p f .forwarded none (takeSample f.payload s) := by
    rw [ha]
    exact if_pos hk
  refine ⟨_, exec_arrival_of_passing hr hu hown hd hl, ?_, fun hroom => ?_⟩
  · unfold asEvent
    rw [intake_noticesSince, matchFrame_of_deciding ht hb hm, intake_finishArrival, hact, intake_forwardAs]
  · have hsizes : (takeSample f.payload s).transitSizes = s.transitSizes :=
      takeSample_keeps State.transitSizes (fun _ _ => rfl) transitSizes_noticesSince transitSizes_takeReading
        f.payload s
    have hroom' : ((takeSample f.payload s).port (PortId.opposite p)).transit.length < 32 := by
      rwa [← transitSizes_get, hsizes, transitSizes_get]
    obtain ⟨hov, htail⟩ := forwardAs_of_room (f := f) (d := .forwarded) (src := none) hroom'
    refine ⟨(takeSample f.payload s).nextMark, ((takeSample f.payload s).port (PortId.opposite p)).transit, ?_⟩
    unfold asEvent
    rw [transit_noticesSince, matchFrame_of_deciding ht hb hm, hact, State.port, ports_finishArrival hov]
    exact htail

/-- A COMMAND frame that a GUARD slot decides. -/
theorem exec_arrival_at_guard {f : Frame} {before after : List MatchSlot} {m : MatchSlot} {s : State}
    (hr : s.resetAsserted = false) (hu : (s.port .supervisor).linkUp = true) (hown : f.dest ≠ s.ownStation)
    (hd : f.dest ≠ 0#8) (hl : f.payload.length ≤ 55) (hk : f.kind = 0x20#8) (ht : s.matchTable = before ++ m :: after)
    (hb : ∀ x ∈ before, x.matches .supervisor f.bytes = false) (hm : m.matches .supervisor f.bytes = true)
    (ha : m.action = .guard) : exec (.frameArrival .supervisor f.bytes) s =
      .next (noticesSince s (finishArrival .supervisor f.bytes (slotOffer m before.length) (guardFrame f s))) := by
  have hact : actOn m.action .supervisor f s = guardFrame f s := by
    rw [ha]
    exact if_pos ⟨hk, rfl⟩
  rw [exec_arrival_of_passing hr hu hown hd hl, asEvent, matchFrame_of_deciding ht hb hm, hact]

end Sys2Proof.Machine
end

section
/-! SUPPORT. The waiting commands and the identity, which no block of the part holds, under every operation: events of
the clock and the sweep, the jobs, arrivals, resets (log 3, R12). -/

namespace Sys2Proof.Machine

/-- What no block of the part holds: the waiting commands and the identity. -/
def State.outside (s : State) : List Instr × BitVec 32 := (s.pending, s.identity)

/-! ### From what an operation may change -/

theorem outside_of_updates {s t : State} (h : t.lessUpdates = s.lessUpdates) : t.outside = s.outside :=
  read_of_erased State.lessUpdates (fun _ => rfl) h

theorem outside_of_plant {s t : State} (h : t.lessPlant = s.lessPlant) : t.outside = s.outside :=
  outside_of_updates (lessUpdates_of_plant h)

theorem outside_of_feed {s t : State} (h : t.lessFeed = s.lessFeed) : t.outside = s.outside :=
  outside_of_plant (lessPlant_of_feed h)

theorem outside_of_load {s t : State} (h : t.lessLoad = s.lessLoad) : t.outside = s.outside :=
  outside_of_plant (lessPlant_of_load h)

theorem outside_of_origins {s t : State} (h : t.lessOrigins = s.lessOrigins) : t.outside = s.outside :=
  outside_of_plant (lessPlant_of_origins h)

theorem outside_of_notices {s t : State} (h : t.lessNotices = s.lessNotices) : t.outside = s.outside :=
  outside_of_plant (lessPlant_of_notices h)

theorem outside_of_offers {s t : State} (h : t.lessOffers = s.lessOffers) : t.outside = s.outside :=
  read_of_erased State.lessOffers (fun _ => rfl) h

theorem outside_choose (s : State) (n : Nat) : (s.choose n).2.outside = s.outside :=
  outside_of_plant (lessPlant_choose s n)

theorem outside_inAnyOrder (acts : List (State → State)) (h : ∀ act ∈ acts, ∀ s, (act s).outside = s.outside)
    (s : State) : (inAnyOrder acts s).outside = s.outside :=
  inAnyOrder_keeps State.outside outside_choose acts h s

theorem outside_asEvent {act : State → State} (h : ∀ s, (act s).outside = s.outside) (s : State) :
    (asEvent act s).outside = s.outside :=
  (outside_of_notices (lessNotices_noticesSince s _)).trans (h s)

theorem outside_unlessHeld {act : State → State} (h : ∀ s, (act s).outside = s.outside) (s : State) :
    (unlessHeld act s).outside = s.outside := by
  unfold unlessHeld
  split
  · rfl
  · exact h s

theorem jobsKeep_outside : JobsKeep State.outside where
  choose := outside_choose
  furnace l s := outside_of_updates (jobsKeep_lessUpdates.furnace l s)
  position l e v fresh s := outside_of_updates (jobsKeep_lessUpdates.position l e v fresh s)
  sample l p v fresh s := outside_of_updates (jobsKeep_lessUpdates.sample l p v fresh s)
  steam s := outside_of_updates (jobsKeep_lessUpdates.steam s)
  turbine s := outside_of_updates (jobsKeep_lessUpdates.turbine s)
  bypass s := outside_of_updates (jobsKeep_lessUpdates.bypass s)
  drum l s := outside_of_updates (jobsKeep_lessUpdates.drum l s)
  cap s := outside_of_updates (jobsKeep_lessUpdates.cap s)
  trip l fromReading s := outside_of_updates (jobsKeep_lessUpdates.trip l fromReading s)

/-! ### Runback, trips, scrub -/

theorem outside_capPosted (cap : Option Nat) (s : State) : (capPosted cap s).outside = s.outside :=
  outside_of_load (lessLoad_capPosted cap s)

theorem outside_envelopeIdle (s : State) : (envelopeIdle s).outside = s.outside := outside_capPosted none _

theorem outside_runbackTick (s : State) : (runbackTick s).outside = s.outside := by
  unfold runbackTick
  split
  · rfl
  · split <;> rfl
  · unfold releaseStep
    dsimp only
    split
    · exact outside_envelopeIdle s
    · exact outside_capPosted _ _

theorem outside_runbackMaxLoad (s : State) : (runbackMaxLoad s).outside = s.outside := by
  unfold runbackMaxLoad
  split
  · split
    · exact outside_envelopeIdle s
    · rfl
  · rfl

theorem outside_tripPosts (l : Line) (tripped : Bool) :
    ∀ act ∈ tripPosts l tripped, ∀ s : State, (act s).outside = s.outside :=
  fun act hact s => outside_of_plant (lessPlant_tripPosts l tripped act hact s)

theorem outside_tripSweep (l : Line) (s : State) : (tripSweep l s).outside = s.outside := by
  unfold tripSweep
  split
  · rfl
  · dsimp only
    split
    · exact outside_of_plant (lessPlant_addTripCause l _ _)
    · rfl

theorem outside_graceChange (l : Line) (s : State) : (graceChange l s).outside = s.outside := by
  unfold graceChange
  split
  · exact outside_of_plant (lessPlant_addTripCause l _ s)
  · rfl

theorem outside_tripReset (l : Line) (s : State) : (tripReset l s).outside = s.outside := by
  unfold tripReset
  dsimp only
  split
  · exact outside_inAnyOrder _ (outside_tripPosts l false) _
  · rfl

theorem outside_scrub (s : State) : (scrub s).outside = s.outside := by
  have posts (l : Line) : ∀ act ∈ s.postsIfEmpty l, ∀ s : State, (act s).outside = s.outside := by
    unfold State.postsIfEmpty
    split
    · exact outside_tripPosts l true
    · exact fun _ h => absurd h List.not_mem_nil
  unfold scrub
  split
  · rfl
  · refine (outside_inAnyOrder _ (fun act hact => ?_) _).trans
      (outside_of_plant ((lessPlant_recordTrip .two _ _).trans (lessPlant_recordTrip .one _ s)))
    exact (List.mem_append.mp hact).elim (posts .one act) (posts .two act)

theorem outside_scrubTick (s : State) : (scrubTick s).outside = s.outside := by
  unfold scrubTick
  split
  · rfl
  · split
    · rfl
    · exact outside_scrub _

theorem outside_resetScrub (s : State) : (resetScrub s).outside = s.outside := by
  unfold resetScrub
  split
  · exact outside_scrub s
  · rfl

/-! ### Averagers -/

theorem outside_postReason (l : Line) (r : EmissionReason) (s : State) : (postReason l r s).outside = s.outside :=
  outside_of_feed (lessFeed_postReason l r s)

theorem outside_postBudget (l : Line) (s : State) : (postBudget l s).outside = s.outside :=
  outside_of_feed (lessFeed_postBudget l s)

theorem outside_saturationTest (l : Line) (b : Nat) (r : Reagent) (s : State) :
    (saturationTest l b r s).outside = s.outside := by
  unfold saturationTest
  dsimp only
  split
  · split
    · exact outside_postReason l _ _
    · rfl
  · split <;> rfl

theorem outside_exceedEpisode (l : Line) (p : Pollutant) (b v : Nat) (s : State) :
    (exceedEpisode l p b v s).outside = s.outside := by
  unfold exceedEpisode
  split <;> rfl

theorem outside_closeEpisode (l : Line) (p : Pollutant) (b : Nat) (s : State) :
    (closeEpisode l p b s).outside = s.outside := by
  unfold closeEpisode
  split <;> rfl

theorem outside_halfHourClose (l : Line) (b : Nat) (p : Pollutant) (s : State) :
    (halfHourClose l b p s).outside = s.outside := by
  unfold halfHourClose
  cases halfHourValue (s.pollutantOf l p).means with
  | none => rfl
  | some v =>
    dsimp only
    split
    · exact outside_exceedEpisode l p b v _
    · exact outside_closeEpisode l p b _

theorem outside_halfHourCloses (l : Line) (b : Nat) (s : State) : (halfHourCloses l b s).outside = s.outside := by
  have closed := inTurn_keeps State.outside Pollutant.all (halfHourClose l b) (outside_halfHourClose l b) s
  unfold halfHourCloses
  dsimp only
  split
  · exact closed
  · refine (outside_postBudget l _).trans (Eq.trans ?_ closed)
    split
    · exact outside_postReason l _ _
    · rfl

theorem outside_dayClose (l : Line) (b : Nat) (p : Pollutant) (s : State) : (dayClose l b p s).outside = s.outside := by
  unfold dayClose
  dsimp only
  split <;> rfl

theorem outside_boundaryClose (l : Line) (s : State) : (boundaryClose l s).outside = s.outside := by
  have blocks (b : Nat) (s : State) : (inTurn Pollutant.all (blockClose l b) s).outside = s.outside :=
    inTurn_keeps State.outside Pollutant.all (blockClose l b) (fun _ _ => rfl) s
  have reagents (b : Nat) (s : State) : (inTurn Reagent.all (saturationTest l b) s).outside = s.outside :=
    inTurn_keeps State.outside _ _ (outside_saturationTest l b) s
  have half (b : Nat) (s : State) : (if b % 1800 = 0 then halfHourCloses l b s else s).outside = s.outside := by
    split
    · exact outside_halfHourCloses l b s
    · rfl
  have day (b : Nat) (s : State) :
      (if b % 86400 = 0 then inTurn Pollutant.all (dayClose l b) s else s).outside = s.outside := by
    split
    · exact inTurn_keeps State.outside _ _ (outside_dayClose l b) s
    · rfl
  exact (day _ _).trans ((half _ _).trans ((reagents _ _).trans (blocks _ _)))

theorem outside_averagerTick (l : Line) (s : State) : (averagerTick l s).outside = s.outside := by
  unfold averagerTick
  split
  · exact outside_asEvent (outside_boundaryClose l) s
  · rfl

theorem outside_averagerTimeSet (l : Line) (s : State) : (averagerTimeSet l s).outside = s.outside := by
  unfold averagerTimeSet
  split
  · exact outside_averagerTick l s
  · exact inTurn_keeps State.outside _ _ (fun _ _ => by rfl) _

theorem outside_hhLimitChange (l : Line) (p : Pollutant) (s : State) : (hhLimitChange l p s).outside = s.outside := by
  unfold hhLimitChange
  split
  · exact outside_of_updates (lessUpdates_setBand l p _ s)
  · rfl

theorem outside_episodeCapChange (l : Line) (s : State) : (episodeCapChange l s).outside = s.outside := by
  unfold episodeCapChange
  split
  · exact outside_postReason l _ s
  · rfl

/-! ### Channels -/

theorem outside_checkChannel (i : Nat) (s : State) : (checkChannel i s).outside = s.outside := by
  unfold checkChannel
  split
  · rfl
  · split
    · exact jobsKeep_outside.postFrom none false i _
    · rfl

theorem outside_checkChannels (first past : Nat) (s : State) : (checkChannels first past s).outside = s.outside :=
  inTurn_keeps State.outside _ _ (fun i => outside_asEvent (outside_checkChannel i)) s

theorem outside_takeReading (r : Reading) (s : State) : (takeReading r s).outside = s.outside := by
  unfold takeReading
  split
  · split
    · exact jobsKeep_outside.postFrom _ _ _ _
    · rfl
  · rfl

theorem outside_takeSample (payload : List Byte) (s : State) : (takeSample payload s).outside = s.outside :=
  takeSample_keeps State.outside (fun _ _ => rfl)
    (fun before s => outside_of_notices (lessNotices_noticesSince before s)) outside_takeReading payload s

/-! ### The limit table -/

theorem outside_deliverLimit (i : LimitId) (s : State) : (deliverLimit i s).outside = s.outside := by
  cases i with
  | line l k =>
    cases k with
    | furnaceMin => exact jobsKeep_outside.furnace l s
    | furnaceHyst => exact jobsKeep_outside.furnace l s
    | bedCeiling => exact outside_of_feed (lessFeed_releaseCheck l s)
    | strokeCharge => exact outside_of_feed (lessFeed_releaseCheck l s)
    | episodeCap => exact outside_episodeCapChange l s
    | hhLimit p => exact outside_hhLimitChange l p s
    | budget => exact outside_postBudget l s
    | drumLow =>
      refine deliver_keeps State.outside outside_choose _ (fun q hq act hact => ?_) s
      simp only [List.mem_cons, List.not_mem_nil, or_false] at hq
      rcases hq with rfl | rfl
      · rw [List.mem_singleton.mp hact]
        exact jobsKeep_outside.steam
      · simp only [runbackDrumActions, List.mem_cons, List.not_mem_nil, or_false] at hact
        rcases hact with rfl | rfl
        · exact jobsKeep_outside.drum l
        · exact jobsKeep_outside.cap
    | drumLowLow => exact jobsKeep_outside.trip l false s
    | drumGrace => exact outside_graceChange l s
    | burnRate => rfl
    | strokeTol => rfl
    | o2Ref => rfl
    | dayLimit _ => rfl
  | plant k =>
    cases k with
    | maxLoad =>
      refine outside_inAnyOrder _ (fun act hact => ?_) s
      simp only [List.mem_cons, List.not_mem_nil, or_false] at hact
      rcases hact with rfl | rfl
      · exact fun s => outside_of_load (lessLoad_recomputeAllowed _ s)
      · exact outside_runbackMaxLoad
    | steamFactor => exact jobsKeep_outside.steam s
    | blockMinSamples => rfl
    | dayMinValid => rfl

theorem outside_writeLimit (i : LimitId) (e : LimitEntry) (s : State) : (writeLimit i e s).outside = s.outside := by
  unfold writeLimit
  dsimp only
  split
  · rfl
  · exact outside_deliverLimit i _

theorem outside_setLimit (index : Nat) (v : Int) (s : State) : (setLimit index v s).2.outside = s.outside := by
  unfold setLimit
  split
  · rfl
  · dsimp only
    split_ifs
    · rfl
    · rfl
    · exact outside_writeLimit _ _ s

theorem outside_setOverride (index : Nat) (v : Int) (s : State) : (setOverride index v s).2.outside = s.outside := by
  unfold setOverride
  split
  · rfl
  · dsimp only
    split_ifs
    · rfl
    · rfl
    · rfl
    · rfl
    · exact outside_writeLimit _ _ s

theorem outside_clearOverride (index : Nat) (s : State) : (clearOverride index s).2.outside = s.outside := by
  unfold clearOverride
  split
  · rfl
  · dsimp only
    split_ifs
    · rfl
    · rfl
    · rfl
    · exact outside_writeLimit _ _ s

theorem outside_freeze (s : State) : (freeze s).2.outside = s.outside := by
  unfold freeze
  split_ifs <;> rfl

/-! ### The clock and the sweep -/

theorem outside_takeTick (u : TickUnit) (s : State) : (takeTick u s).outside = s.outside := by
  cases u with
  | feed l => exact outside_asEvent (act := feedTick l) (fun s => outside_of_feed (lessFeed_feedTick l s)) s
  | averager l => exact outside_asEvent (outside_averagerTick l) s
  | dispatch => exact outside_asEvent (act := dispatchTick) (fun s => outside_of_load (lessLoad_dispatchTick s)) s
  | runback => exact outside_asEvent outside_runbackTick s
  | limits => exact outside_asEvent outside_scrubTick s

theorem outside_takeOwedTick (u : TickUnit) (s : State) : (takeOwedTick u s).outside = s.outside := by
  unfold takeOwedTick
  split
  · exact outside_takeTick u _
  · rfl

theorem outside_settleTick (s : State) : (settleTick s).outside = s.outside :=
  inTurn_keeps State.outside _ _ outside_takeOwedTick s

theorem outside_secondTick (order : List TickUnit) (s : State) : (secondTick order s).outside = s.outside := by
  refine outside_unlessHeld (fun s => ?_) s
  have settled := outside_settleTick s
  generalize settleTick s = u at settled ⊢
  exact (inTurn_keeps State.outside order takeOwedTick outside_takeOwedTick _).trans settled

theorem outside_tickBrings (u : TickUnit) (falls : State → Bool) (s : State) :
    (tickBrings u falls s).outside = s.outside := by
  refine outside_unlessHeld (fun s => ?_) s
  split
  · exact outside_takeOwedTick u s
  · rfl

theorem outside_takeSweep (u : SweepUnit) (s : State) : (takeSweep u s).outside = s.outside := by
  cases u with
  | channels => exact outside_checkChannels _ _ _
  | trip l => exact outside_asEvent (outside_tripSweep l) s

theorem outside_takeOwedSweep (u : SweepUnit) (s : State) : (takeOwedSweep u s).outside = s.outside := by
  unfold takeOwedSweep
  split
  · exact outside_takeSweep u _
  · rfl

theorem outside_settleSweep (s : State) : (settleSweep s).outside = s.outside :=
  inTurn_keeps State.outside _ _ outside_takeOwedSweep s

theorem outside_sweep (order : List SweepUnit) (s : State) : (sweep order s).outside = s.outside := by
  refine outside_unlessHeld (fun s => ?_) s
  have settled := outside_settleSweep s
  generalize settleSweep s = u at settled ⊢
  exact (inTurn_keeps State.outside order takeOwedSweep outside_takeOwedSweep _).trans settled

theorem outside_channelLost (c : Nat) (s : State) : (channelLost c s).outside = s.outside := by
  refine outside_unlessHeld (fun s => ?_) s
  dsimp only
  split_ifs
  · exact outside_checkChannels _ _ _
  · rfl

theorem outside_drumGraceExpiry (l : Line) (s : State) : (drumGraceExpiry l s).outside = s.outside := by
  refine outside_unlessHeld (fun s => ?_) s
  split
  · exact outside_takeOwedSweep _ s
  · rfl

theorem outside_setTime (time : Nat) (s : State) : (setTime time s).2.outside = s.outside := by
  unfold setTime
  split
  · have settled := outside_settleTick s
    generalize settleTick s = u at settled ⊢
    refine (outside_inAnyOrder _ (fun act hact => ?_) _).trans settled
    simp only [List.mem_cons, List.not_mem_nil, or_false] at hact
    rcases hact with rfl | rfl | rfl
    · exact outside_averagerTimeSet .one
    · exact outside_averagerTimeSet .two
    · exact fun s => outside_of_load (lessLoad_dispatchTimeSet s)
  · rfl

theorem outside_storageFault (code : BitVec 16) (s : State) : (storageFault code s).outside = s.outside := by
  unfold storageFault
  split <;> rfl

/-! ### Links and transmissions -/

theorem outside_linkDown (p : PortId) (s : State) : (linkDown p s).outside = s.outside := by
  refine outside_unlessHeld (fun s => ?_) s
  rfl

theorem outside_transmissionStart (p : PortId) (s : State) : (transmissionStart p s).outside = s.outside := by
  refine outside_unlessHeld (fun s => ?_) s
  rfl

theorem outside_transmissionCompletion (p : PortId) (s : State) : (transmissionCompletion p s).outside = s.outside := by
  refine outside_unlessHeld (fun s => ?_) s
  split <;> rfl

theorem outside_linkUp (p : PortId) (s : State) : (linkUp p s).outside = s.outside := by
  refine outside_unlessHeld (fun s => ?_) s
  split <;> rfl

/-! ### Arrivals -/

theorem outside_schedule (o : Order) (s : State) : (schedule o s).1.outside = s.outside := by
  unfold schedule
  split_ifs <;> rfl

theorem outside_orderHandled (payload : List Byte) (s : State) : (orderHandled payload s).1.outside = s.outside := by
  unfold orderHandled
  dsimp only
  split
  · exact (outside_of_load ((lessLoad_recomputeAllowed _ _).trans (lessLoad_activate _))).trans (outside_schedule _ s)
  · split <;> rfl
  · rfl
  · rfl

theorem outside_orderAck (dest : Byte) (number : Nat) (st : AckStatus) (s : State) :
    (orderAck dest number st s).outside = s.outside := by
  unfold orderAck
  split
  · rename_i h
    exact outside_of_notices (lessNotices_enterOrigin h)
  · rfl

theorem outside_handleOrder (f : Frame) (s : State) : (handleOrder f s).outside = s.outside := by
  have acked := (outside_orderAck f.src (u16At f.payload 0) (orderHandled f.payload s).2 _).trans
    (outside_orderHandled f.payload s)
  unfold handleOrder
  dsimp only
  split
  · exact acked
  · exact acked
  · exact acked

theorem outside_forwardAs (p : PortId) (f : Frame) (d : Disposition) (src : Option CaptureSource) (s : State) :
    (forwardAs p f d src s).after.outside = s.outside :=
  outside_of_origins (lessOrigins_forwardAs p f d src s)

theorem outside_carry (p : PortId) (f : Frame) (s : State) : (carry p f s).after.outside = s.outside := by
  unfold carry
  split
  · exact outside_forwardAs _ _ _ _ s
  · exact outside_forwardAs _ _ _ _ s

theorem outside_applyVerdict (f : Frame) (v : Verdict) (s : State) :
    (applyVerdict f v s).after.outside = s.outside := by
  cases v with
  | unchanged => exact outside_forwardAs _ _ _ _ s
  | rewritten w => exact outside_forwardAs _ _ _ _ s
  | absorbStroke l n =>
    unfold applyVerdict strokeArrives
    dsimp only
    split
    · exact outside_of_feed (lessFeed_releaseCheck l _)
    · rfl
  | absorbStop l => exact outside_of_feed (lessFeed_abortStroke l _)
  | withhold => rfl

theorem outside_guardFrame (f : Frame) (s : State) : (guardFrame f s).after.outside = s.outside := by
  unfold guardFrame
  split
  · exact outside_applyVerdict f _ s
  · split
    · exact outside_applyVerdict f _ _
    · exact outside_applyVerdict f _ s

theorem outside_actOn (a : Action) (p : PortId) (f : Frame) (s : State) :
    (actOn a p f s).after.outside = s.outside := by
  cases a with
  | forward => exact outside_carry p f s
  | drop => rfl
  | samples =>
    unfold actOn
    dsimp only
    split
    · exact (outside_forwardAs _ _ _ _ _).trans (outside_takeSample _ s)
    · exact outside_carry p f s
  | guard =>
    unfold actOn
    dsimp only
    split
    · exact outside_guardFrame f s
    · exact outside_forwardAs _ _ _ _ s

theorem outside_matchFrame (p : PortId) (bytes : List Byte) (f : Frame) (s : State) :
    (matchFrame p bytes f s).outside = s.outside := by
  have finished (slot : Option CaptureSource) (x : Decided) :
      (finishArrival p bytes slot x).outside = x.after.outside :=
    (outside_of_offers (lessOffers_finishArrival p bytes slot x)).trans rfl
  unfold matchFrame
  split
  · exact (finished _ _).trans (outside_carry p f s)
  · exact (finished _ _).trans (outside_actOn _ p f s)

theorem outside_classify (p : PortId) (bytes : List Byte) (f : Frame) (s : State) :
    (classify p bytes f s).outside = s.outside := by
  unfold classify
  split
  · split
    · unfold requestArrives
      split <;> rfl
    · split
      · unfold orderArrives
        split
        · exact outside_handleOrder f s
        · rfl
      · rfl
  · exact outside_matchFrame p bytes f s

theorem outside_frameArrival (p : PortId) (bytes : List Byte) (s : State) :
    (frameArrival p bytes s).outside = s.outside := by
  refine outside_unlessHeld (outside_asEvent fun s => ?_) s
  split
  · rfl
  · split
    · rfl
    · split
      · rfl
      · exact outside_classify p bytes _ s

/-! ### Resets -/

theorem outside_settleAll (s : State) : (settleAll s).outside = s.outside :=
  (outside_settleSweep _).trans (outside_settleTick s)

theorem outside_assertReset (s : State) : (assertReset s).outside = s.outside := by
  unfold assertReset
  split
  · rfl
  · have settled := outside_settleAll s
    generalize settleAll s = u at settled ⊢
    exact settled

theorem outside_lineReset (straps : BitVec 8) (s : State) : (lineReset straps s).outside = s.outside :=
  (outside_postBudget .two _).trans ((outside_postBudget .one _).trans
    ((outside_resetScrub _).trans (outside_assertReset s)))

theorem outside_dispatchRestarted (s : State) : (dispatchRestarted s).outside = s.outside :=
  (outside_of_load (lessLoad_recomputeAllowed _ _)).trans (outside_of_plant (lessPlant_deriveSink _))

theorem outside_evalSinkAndRams (l : Line) (s : State) : (evalSinkAndRams l s).outside = s.outside := by
  refine (outside_of_feed (lessFeed_evalNoRam l _)).trans ?_
  split
  · exact outside_of_feed (lessFeed_addHold l _ s)
  · rfl

theorem outside_softReset (s : State) : (softReset s).outside = s.outside := by
  have evaluated (s : State) :
      (inAnyOrder [dispatchRestarted, evalFurnace .one, evalFurnace .two] s).outside = s.outside := by
    refine outside_inAnyOrder _ (fun act hact => ?_) s
    simp only [List.mem_cons, List.not_mem_nil, or_false] at hact
    rcases hact with rfl | rfl | rfl
    · exact outside_dispatchRestarted
    · exact jobsKeep_outside.furnace .one
    · exact jobsKeep_outside.furnace .two
  have triggered (s : State) :
      (capTaken (condition (.lineTrip .two) true (condition (.lineTrip .one) true s))).outside = s.outside :=
    outside_of_plant ((lessPlant_capTaken _).trans ((lessPlant_condition _ _ _).trans (lessPlant_condition _ _ s)))
  have settled := outside_settleAll s
  unfold softReset
  generalize settleAll s = u at settled ⊢
  exact (outside_of_notices (lessNotices_noticesSince _ _)).trans <| (outside_postBudget .two _).trans <|
    (outside_postBudget .one _).trans <| (triggered _).trans <| (outside_evalSinkAndRams .two _).trans <|
    (outside_evalSinkAndRams .one _).trans <| (evaluated _).trans <| (outside_resetScrub _).trans settled

end Sys2Proof.Machine
end

section
/-! SUPPORT. The waiting commands and the identity under the execution of a request (R186). -/

namespace Sys2Proof.Machine

/-! ### Executions -/

/-- What a body keeps, the execution of its row keeps: reservation, NOTICEs and REPLY are no part of it. -/
theorem outside_serve {body : Request → State → Answer} (h : ∀ r s, (body r s).after.outside = s.outside) (row : Instr)
    (s : State) : (serve row body s).outside = s.outside := by
  unfold serve
  split
  · rename_i r rest _
    have placed (a : Answer) : (placeReply r a).outside = a.after.outside := rfl
    have noticed (a : Answer) : (a.noticed (s.beginExecution rest)).after.outside = a.after.outside :=
      outside_of_notices (lessNotices_noticesSince _ a.after)
    exact (placed _).trans ((noticed _).trans (h r (s.beginExecution rest)))
  · rfl

theorem outside_serve_sized {body : List Byte → State → Answer} (h : ∀ args s, (body args s).after.outside = s.outside)
    (row : Instr) (n : Nat) (s : State) : (serve row (sized n body) s).outside = s.outside := by
  refine outside_serve (fun r s => ?_) row s
  unfold sized
  split
  · exact h _ s
  · rfl

theorem outside_serve_confirmed {body : List Byte → State → Answer}
    (h : ∀ args s, (body args s).after.outside = s.outside) (row : Instr) (n : Nat) (s : State) :
    (serve row (confirmed n body) s).outside = s.outside := by
  refine outside_serve (fun r s => ?_) row s
  unfold confirmed
  split
  · rfl
  · split
    · exact h _ s
    · exact outside_of_offers (lessOffers_of_capture (lessCapture_captureOffer r.confirmOffer s))

/-! ### Table writes (R190) -/

theorem outside_readTableBody (args : List Byte) (s : State) : (readTableBody args s).after.outside = s.outside := by
  unfold readTableBody
  dsimp only
  split
  · rfl
  · split <;> rfl

theorem outside_writeMatchBody (args : List Byte) (s : State) : (writeMatchBody args s).after.outside = s.outside := by
  unfold writeMatchBody
  split
  · rfl
  · split <;> rfl

theorem outside_pointInsertBody (args : List Byte) (s : State) :
    (pointInsertBody args s).after.outside = s.outside := by
  unfold pointInsertBody
  split
  · rfl
  · split <;> rfl

theorem outside_pointUpdateBody (args : List Byte) (s : State) :
    (pointUpdateBody args s).after.outside = s.outside := by
  unfold pointUpdateBody
  split
  · split
    · dsimp only
      split_ifs
      · rfl
      · exact jobsKeep_outside.postFrom none false _ _
      · exact jobsKeep_outside.postUpdates none false _ _
      · rfl
    · rfl
  · rfl

theorem outside_deletePointBody (args : List Byte) (s : State) :
    (deletePointBody args s).after.outside = s.outside := by
  unfold deletePointBody
  split
  · rfl
  · split <;> rfl

theorem outside_ramWritten (entry : Nat) (old : Option Actuator) (new : Actuator) (s : State) :
    (ramWritten entry old new s).outside = s.outside := by
  unfold ramWritten
  split
  · split
    · rfl
    · refine inTurn_keeps State.outside _ _ (fun l s => ?_) s
      split
      · exact outside_of_feed (lessFeed_ramChange l s)
      · rfl
  · rfl

theorem outside_actuatorWriteBounds (entry : Nat) (before : Option Actuator) (s : State) :
    (actuatorWriteBounds entry before s).outside = s.outside := by
  have rewritten (n : Nat) (b : Bound) : (s.rewrite n b).1.outside = s.outside :=
    outside_of_origins (lessOrigins_rewrite s n b)
  unfold actuatorWriteBounds
  split
  · dsimp only
    split_ifs
    · exact (outside_of_origins (lessOrigins_floorRise _ _ _)).trans (rewritten _ _)
    · exact rewritten _ _
    · rfl
    · exact rewritten _ _
    · rfl
  · rfl

theorem outside_writeActuatorBody (args : List Byte) (s : State) :
    (writeActuatorBody args s).after.outside = s.outside := by
  unfold writeActuatorBody
  dsimp only
  split
  · rfl
  · split
    · rfl
    · split_ifs
      · rfl
      · rfl
      · rfl
      · rfl
      · rfl
      · exact (outside_actuatorWriteBounds _ _ _).trans (outside_ramWritten _ _ _ _)

theorem outside_deleteActuatorBody (args : List Byte) (s : State) :
    (deleteActuatorBody args s).after.outside = s.outside := by
  unfold deleteActuatorBody
  dsimp only
  split
  · rfl
  · split
    · rfl
    · split <;> rfl

/-- What actions keep, a role's change keeps, whether it takes them or none. -/
theorem whenChanged_keeps {old new : Option Nat} {acts : List (State → State)}
    (h : ∀ act ∈ acts, ∀ s, (act s).outside = s.outside) :
    ∀ act ∈ whenChanged old new acts, ∀ s, (act s).outside = s.outside := by
  unfold whenChanged
  split
  · exact fun _ hact => absurd hact List.not_mem_nil
  · exact h

theorem outside_lineRebound (l : Line) (old new : LineBinding) (s : State) :
    (lineRebound l old new s).outside = s.outside := by
  have single {act : State → State} (h : ∀ s, (act s).outside = s.outside) :
      ∀ a ∈ [act], ∀ s, (a s).outside = s.outside := fun a ha => List.mem_singleton.mp ha ▸ h
  refine deliver_keeps State.outside outside_choose _ (fun q hq => ?_) s
  simp only [List.mem_cons, List.not_mem_nil, or_false] at hq
  rcases hq with rfl | rfl | rfl | rfl | rfl
  · exact whenChanged_keeps (single (jobsKeep_outside.furnace l))
  · split
    · exact single fun s => outside_of_feed (lessFeed_ramChange l s)
    · exact fun _ hact => absurd hact List.not_mem_nil
  · intro act hact
    exact (List.mem_append.mp hact).elim (whenChanged_keeps (single jobsKeep_outside.steam) act)
      (whenChanged_keeps (single jobsKeep_outside.steam) act)
  · refine whenChanged_keeps fun act hact => ?_
    simp only [runbackDrumActions, List.mem_cons, List.not_mem_nil, or_false] at hact
    rcases hact with rfl | rfl
    · exact jobsKeep_outside.drum l
    · exact jobsKeep_outside.cap
  · exact whenChanged_keeps (single (jobsKeep_outside.trip l false))

theorem outside_writeLineBinding (l : Line) (rec : List Byte) (s : State) :
    (writeLineBinding l rec s).after.outside = s.outside := by
  unfold writeLineBinding
  dsimp only
  split_ifs
  · rfl
  · rfl
  · rfl
  · rfl
  · exact outside_lineRebound l _ _ _
  · exact outside_lineRebound l _ _ _

theorem outside_writeBindingBody (args : List Byte) (s : State) :
    (writeBindingBody args s).after.outside = s.outside := by
  unfold writeBindingBody
  split
  · split
    · rfl
    · refine deliver_keeps State.outside outside_choose _ (fun q hq act hact => ?_) _
      rw [List.mem_singleton.mp hq] at hact
      refine (List.mem_append.mp hact).elim (whenChanged_keeps (fun a ha => ?_) act)
        (whenChanged_keeps (fun a ha => ?_) act)
      · rw [List.mem_singleton.mp ha]
        exact jobsKeep_outside.turbine
      · rw [List.mem_singleton.mp ha]
        exact jobsKeep_outside.bypass
  · exact outside_writeLineBinding .one _ s
  · exact outside_writeLineBinding .two _ s
  · rfl

theorem outside_bindingSized (r : Request) (s : State) : (bindingSized r s).after.outside = s.outside := by
  unfold bindingSized
  split_ifs
  · exact outside_writeBindingBody _ s
  · rfl
  · exact outside_writeBindingBody _ s
  · rfl

theorem outside_writeFeedSettingsBody (args : List Byte) (s : State) :
    (writeFeedSettingsBody args s).after.outside = s.outside := by
  unfold writeFeedSettingsBody
  dsimp only
  split
  · rfl
  · split <;> rfl

theorem outside_writeRunbackBody (args : List Byte) (s : State) :
    (writeRunbackBody args s).after.outside = s.outside := by
  unfold writeRunbackBody
  dsimp only
  split_ifs <;> rfl

theorem outside_writeDispatchBody (args : List Byte) (s : State) :
    (writeDispatchBody args s).after.outside = s.outside := by
  unfold writeDispatchBody
  dsimp only
  split_ifs
  · rfl
  · rfl
  · exact (outside_of_origins (lessOrigins_followAllowed _) :)
  · rfl

theorem outside_writeNotices (station set : Nat) (s : State) : (writeNotices station set s).outside = s.outside := by
  refine inTurn_keeps State.outside _ _ (fun c s => ?_) _
  split
  · exact outside_of_notices (lessNotices_noticeOccasion c s)
  · rfl

theorem outside_writeNoticesBody (args : List Byte) (s : State) :
    (writeNoticesBody args s).after.outside = s.outside := by
  unfold writeNoticesBody
  dsimp only
  split_ifs
  · rfl
  · rfl
  · exact outside_writeNotices _ _ s

theorem outside_setNoticesBody (args : List Byte) (s : State) : (setNoticesBody args s).after.outside = s.outside := by
  unfold setNoticesBody
  dsimp only
  split
  · rfl
  · exact outside_writeNotices _ _ s

/-! ### Requests that write no table record -/

theorem outside_onLine {args : List Byte} {s : State} {body : Line → Answer}
    (h : ∀ l, (body l).after.outside = s.outside) : (onLine args s body).after.outside = s.outside := by
  unfold onLine
  split
  · exact h _
  · rfl

theorem outside_onChannel {args : List Byte} {s : State} {body : Nat → Channel → Answer}
    (h : ∀ x c, (body x c).after.outside = s.outside) : (onChannel args s body).after.outside = s.outside := by
  unfold onChannel
  dsimp only
  split
  · rfl
  · split
    · exact h _ _
    · rfl

theorem outside_changeChannel (x : Nat) (c : Channel) (s : State) : (changeChannel x c s).after.outside = s.outside :=
  jobsKeep_outside.postFrom none false x _

theorem outside_setChannelServiceBody (args : List Byte) (s : State) :
    (setChannelServiceBody args s).after.outside = s.outside := by
  refine outside_onChannel fun x c => ?_
  split
  · exact outside_changeChannel x _ s
  · exact outside_changeChannel x _ s
  · rfl

theorem outside_rearmChannelBody (args : List Byte) (s : State) :
    (rearmChannelBody args s).after.outside = s.outside := by
  refine outside_onChannel fun x c => ?_
  split
  · exact outside_changeChannel x _ s
  · rfl

theorem outside_enableRamBody (args : List Byte) (s : State) : (enableRamBody args s).after.outside = s.outside := by
  unfold enableRamBody
  dsimp only
  split
  · rfl
  · split
    · rfl
    · split_ifs
      · rfl
      · rfl
      · exact outside_ramWritten _ _ _ _

theorem outside_holdFeedBody (args : List Byte) (s : State) : (holdFeedBody args s).after.outside = s.outside := by
  refine outside_onLine fun l => ?_
  split
  · rfl
  · exact outside_of_feed (lessFeed_addHold l _ s)

theorem outside_clearEmission (l : Line) (s : State) : (clearEmission l s).after.outside = s.outside := by
  unfold clearEmission
  split_ifs
  · rfl
  · rfl
  · exact outside_of_feed (lessFeed_removeHold l _ _)

theorem outside_clearHoldBody (args : List Byte) (s : State) : (clearHoldBody args s).after.outside = s.outside := by
  refine outside_onLine fun l => ?_
  split
  · rfl
  · split
    · exact outside_of_feed (lessFeed_removeHold l _ s)
    · rfl
  · exact outside_clearEmission l s
  · split <;> rfl

theorem outside_tripBody (args : List Byte) (s : State) : (tripBody args s).after.outside = s.outside := by
  refine outside_onLine fun l => ?_
  split
  · rfl
  · exact outside_of_plant (lessPlant_addTripCause l _ s)

theorem outside_tripResetBody (args : List Byte) (s : State) : (tripResetBody args s).after.outside = s.outside :=
  outside_onLine fun l => outside_tripReset l s

theorem outside_stopRunbackBody (args : List Byte) (s : State) :
    (stopRunbackBody args s).after.outside = s.outside := by
  unfold stopRunbackBody
  split_ifs
  · rfl
  · rfl
  · exact outside_envelopeIdle s

theorem outside_newYearBody (args : List Byte) (s : State) : (newYearBody args s).after.outside = s.outside :=
  outside_onLine fun _ => rfl

theorem outside_readCaptureBody (args : List Byte) (s : State) :
    (readCaptureBody args s).after.outside = s.outside := by
  unfold readCaptureBody
  dsimp only
  split
  · rfl
  · split
    · rfl
    · split <;> rfl

theorem outside_releaseCaptureBody (args : List Byte) (s : State) :
    (releaseCaptureBody args s).after.outside = s.outside := by
  unfold releaseCaptureBody
  dsimp only
  split
  · rfl
  · split <;> rfl

theorem outside_clearAttentionBody (args : List Byte) (s : State) :
    (clearAttentionBody args s).after.outside = s.outside := by
  unfold clearAttentionBody
  dsimp only
  split_ifs <;> rfl

theorem outside_clearPortErrorsBody (args : List Byte) (s : State) :
    (clearPortErrorsBody args s).after.outside = s.outside := by
  unfold clearPortErrorsBody
  dsimp only
  split <;> rfl

theorem outside_restartBody (args : List Byte) (s : State) : (restartBody args s).after.outside = s.outside := by
  have answered (st : Status) (u : State) : (answer st u).after = u := rfl
  rw [restartBody, answered, outside_softReset]

end Sys2Proof.Machine
end

section
/-! CERTIFICATE. The statements of the family 01_segment_frames.md, settled. -/

namespace Sys2Proof.Machine

/-! ### Requests: form, reading, port error counts (O50, O26, O30) -/

/-- Settles O50, by the four values of the argument. -/
theorem clearPortErrorsEffect : Obligations.ClearPortErrorsEffect := by
  intro r rest selection s h ha
  have answered {st : Status} {u : State} (hb : clearPortErrorsBody [selection] (s.beginExecution rest) =
      ⟨st, [], u.beginExecution rest⟩) (hu : u.attention = s.attention) :
      exec .clearPortErrors s = .next (withReply r rest st [] u) :=
    congrArg Host.Outcome.next (serve_sized h (by rw [ha]; rfl) (by rw [ha]; exact hb) hu)
  refine ⟨?_, ?_, ?_, fun h3 => answered (clearPortErrors_beyond h3 _) rfl⟩
  · rintro rfl
    exact answered rfl rfl
  · rintro rfl
    exact answered rfl rfl
  · rintro rfl
    exact answered rfl rfl

/-- Settles O26: each row's form test, then the refusal's REPLY. -/
theorem formRefusals : Obligations.FormRefusals := by
  intro row r rest s h hform
  have refused {body : Request → State → Answer} (hx : exec row s = .next (serve row body s))
      (hb : body r (s.beginExecution rest) = answer .badRequest (s.beginExecution rest)) :
      exec row s = .next (withReply r rest .badRequest [] s) := by
    rw [hx, serve_refused h hb]
  rcases hform with hrow | ⟨n, hrow, hn⟩ | ⟨rfl, hn⟩ | ⟨hrow, hn⟩
  case inl =>
    simp only [List.mem_cons, List.not_mem_nil, or_false] at hrow
    rcases hrow with rfl | rfl | rfl <;> exact refused rfl rfl
  case inr.inl =>
    simp only [List.mem_cons, Prod.mk.injEq, List.not_mem_nil, or_false] at hrow
    rcases hrow with ⟨rfl, rfl⟩ | ⟨rfl, rfl⟩ | ⟨rfl, rfl⟩ | ⟨rfl, rfl⟩ | ⟨rfl, rfl⟩ | ⟨rfl, rfl⟩ | ⟨rfl, rfl⟩ |
      ⟨rfl, rfl⟩ | ⟨rfl, rfl⟩ | ⟨rfl, rfl⟩ | ⟨rfl, rfl⟩ | ⟨rfl, rfl⟩ | ⟨rfl, rfl⟩ | ⟨rfl, rfl⟩ | ⟨rfl, rfl⟩ |
      ⟨rfl, rfl⟩ | ⟨rfl, rfl⟩ | ⟨rfl, rfl⟩ | ⟨rfl, rfl⟩ | ⟨rfl, rfl⟩ | ⟨rfl, rfl⟩ | ⟨rfl, rfl⟩ | ⟨rfl, rfl⟩ |
      ⟨rfl, rfl⟩ | ⟨rfl, rfl⟩ | ⟨rfl, rfl⟩ | ⟨rfl, rfl⟩ <;>
    exact refused rfl (sized_of_other_length _ hn)
  case inr.inr.inl => exact refused rfl (bindingSized_of_other_length _ hn)
  case inr.inr.inr =>
    have short : r.args.length < 1 := by rw [hn]; exact Nat.one_pos
    simp only [List.mem_cons, List.not_mem_nil, or_false] at hrow
    rcases hrow with rfl | rfl <;> exact refused rfl (confirmed_of_short _ short)

/-- Settles O30: what the body answers is placed as it is; its size is bounded by the run of records that fits, and a
run of LIMITS records is known record by record. -/
theorem readTableReply : Obligations.ReadTableReply := by
  intro r rest table i1 i0 count last s h ha ht
  have answered {st : Status} {data : List Byte} {u : State}
      (hb : readTableBody [table, i1, i0, count] (s.beginExecution rest) = ⟨st, data, u.beginExecution rest⟩)
      (hu : u.attention = s.attention) : exec .readTable s = .next (withReply r rest st data u) :=
    congrArg Host.Outcome.next (serve_sized h (by rw [ha]; rfl) (by rw [ha]; exact hb) hu)
  refine ⟨fun hr => answered (readTable_refused _ ht hr) rfl, fun hc hf h5 => ?_⟩
  refine ⟨_, ?_, answered (u := { s with freeCount := s.freeCount + 1 }) (readTable_done _ ht hc hf h5) rfl, ?_⟩
  · have := collect_fits ((s.beginExecution rest).tableRecord table.toNat)
      ((s.beginExecution rest).readable table.toNat last)
      (count := count.toNat) (i := i1.toNat * 256 + i0.toNat) (Nat.zero_le 50)
    simp only [List.length_append, be16, List.length_cons, List.length_nil]
    omega
  · rintro rfl
    obtain rfl : last = 51 := (Option.some.inj ht).symm
    exact limits_run (s.beginExecution rest) count.toNat _

/-! ### Confirm blocks and the capture store's offers (O27) -/

/-- Settles O27: the offer of a request not confirmed is an offer as any other, and an offer sets at most one cause. -/
theorem confirmNotFound : Obligations.ConfirmNotFound := by
  refine ⟨fun row r rest s h hrow hc => ?_, fun o s => ⟨offerEvent_of_disarmed, fun i ha hf => ?_, fun ha hf => ?_⟩⟩
  · have hx : exec row s = .next (withReply r rest .badConfirm []
        (asEvent (captureOffer r.confirmOffer) (s.beginExecution rest))) := by
      have served {n : Nat} (body : List Byte → State → Answer)
          (hx : exec row s = .next (serve row (confirmed n body) s)) (hn : n ≤ r.args.length) :=
        hx.trans (congrArg _ (serve_not_confirmed (n := n) body h hn hc))
      rcases hrow with rfl | rfl | ⟨rfl | rfl, ha⟩
      · exact served _ rfl (Nat.zero_le _)
      · exact served _ rfl (Nat.zero_le _)
      · exact served _ rfl (List.length_pos_iff.mpr ha)
      · exact served _ rfl (List.length_pos_iff.mpr ha)
    refine ⟨hx, fun hd => ?_⟩
    rw [hx, offerEvent_of_disarmed (o := r.confirmOffer) (s := s.beginExecution rest) hd]
    rfl
  · exact offerEvent_of_taken (captureOffer_of_free ha hf) (by decide)
  · exact offerEvent_of_taken (captureOffer_of_full ha hf) (by decide)

/-! ### What an arrival is taken for (O10) -/

/-- Settles O10, clause by clause: a port error, the intake at a SAMPLES slot, what the guard withholds, what it hands
to a line's feed admission unit. -/
theorem arrivalEffects : Obligations.ArrivalEffects := by
  refine ⟨fun p bytes s hr hu hl => ⟨fun h => ?_, fun h hc => ?_⟩,
    fun p f before after m s hr hu hown hd hlen hk ht hb hm ha => ?_,
    fun f before after m s hr hu hown hd hlen hk hto ht _ hb hm ha => ?_⟩
  · exact portErrorArrival hl rfl (exec_arrival_of_lengthCheck hr hu h)
  · exact portErrorArrival hl rfl (exec_arrival_of_checkTest hr hu h hc)
  · obtain ⟨t, hx, hi, hsent⟩ := sampleArrival hr hu hown hd hlen hk ht hb hm ha
    refine ⟨t, hx, (congrArg Intake.points hi).trans (points_takeSample f.payload s), hsent, fun hbad => ?_,
      fun point v q hpoint h1 h2 hpay => ?_⟩
    · rw [takeSample_of_malformed hbad] at hi
      exact ⟨congrArg Intake.channels hi, congrArg Intake.unmapped hi, congrArg Intake.malformed hi⟩
    · have h5 : f.payload.length = 5 := by rw [hpay]; rfl
      have hread : readingAt f.payload 0 = ⟨point, v, Quality.ofByte q.toNat⟩ := by
        rw [hpay]
        exact readingAt_bytes q hpoint h1 h2
      refine ⟨(congrArg Intake.malformed hi).trans (malformed_takeSample_of_one h5 s), fun hnone => ?_,
        fun x c hx hc => ?_⟩
      · rw [intake_takeSample_unmapped h5 hread hnone] at hi
        exact ⟨congrArg Intake.channels hi, congrArg Intake.unmapped hi⟩
      · rw [intake_takeSample_mapped h5 hread hx hc, Channel.take_eq] at hi
        exact ⟨congrArg Intake.unmapped hi, congrArg Intake.channels hi⟩
  · have hx := exec_arrival_at_guard hr hu hown hd hlen hk ht hb hm ha
    refine ⟨fun hform => ?_, fun c e a l hc he hact hrole hgroup hother => ?_⟩
    · rw [guardFrame_withheld hform, asEvent_withheld hto] at hx
      refine ⟨fun hcap => ?_, fun hcap => ?_⟩ <;> rw [hx, slotOffer, hcap] <;> rfl
    · have hline := feedLine_eq_some hgroup hother
      rw [guardFrame_of_feedGroup hc he hact hrole] at hx
      refine ⟨fun hv h5 h100 => ?_, fun hv => ?_⟩
      · rw [feedGroupVerdict_stroke hline hv h5 h100] at hx
        refine ⟨fun hroom => ?_, fun hfull => ?_⟩
        · rw [hx, applyVerdict, strokeArrives_of_room hroom]
          exact congrArg _ (asEvent_absorbed (act := releaseCheck l)
            ((tripOffers_releaseCheck l _).trans hto) (plantTime_releaseCheck l _) rfl)
        · rw [hx, applyVerdict, strokeArrives_of_full hfull]
          exact congrArg _ (asEvent_absorbed (act := setCause .strokeRefused (some l) f.seq.toNat) hto rfl rfl)
      · rw [feedGroupVerdict_stop hline hv] at hx
        refine ⟨fun hidle => ?_, fun ram target r hflight hr => ?_, fun ram target hflight hr => ?_⟩
        · rw [hx, applyVerdict, feedStop_of_idle hidle]
          exact congrArg _ (asEvent_absorbed (act := id) hto rfl rfl)
        · rw [hx, applyVerdict, (feedStop_of_inStroke hflight).trans (originate_of_entry hr)]
          exact congrArg _ (asEvent_absorbed (act := originateCommand .urgent ⟨r.number, .stop, 0⟩)
            ((tripOffers_originateCommand _ _ _).trans hto) (plantTime_originateCommand _ _ _) rfl)
        · rw [hx, applyVerdict, (feedStop_of_inStroke hflight).trans (originate_of_empty hr)]
          exact congrArg _ (asEvent_absorbed (act := id) hto rfl rfl)

/-! ### Every command answers, and leaves the waiting commands and the identity (O2) -/

/-- Every command answers a next state that keeps what no block holds. -/
theorem exec_keeps_outside (c : Instr) (s : State) : ∃ t, exec c s = .next t ∧ t.outside = s.outside := by
  cases c with
  | powerOn straps => exact ⟨_, rfl, rfl⟩
  | resetNAssert => exact ⟨_, rfl, outside_assertReset s⟩
  | lineReset straps => exact ⟨_, rfl, outside_lineReset straps s⟩
  | linkDown p => exact ⟨_, rfl, outside_linkDown p s⟩
  | linkUp p => exact ⟨_, rfl, outside_linkUp p s⟩
  | frameArrival p bytes => exact ⟨_, rfl, outside_frameArrival p bytes s⟩
  | transmissionStart p => exact ⟨_, rfl, outside_transmissionStart p s⟩
  | transmissionCompletion p => exact ⟨_, rfl, outside_transmissionCompletion p s⟩
  | secondTick order => exact ⟨_, rfl, outside_secondTick order s⟩
  | strokeExpiry l => exact ⟨_, rfl, outside_tickBrings _ _ s⟩
  | strokeTimeout l => exact ⟨_, rfl, outside_tickBrings _ _ s⟩
  | settleEnd l => exact ⟨_, rfl, outside_tickBrings _ _ s⟩
  | orderActivation => exact ⟨_, rfl, outside_tickBrings _ _ s⟩
  | runbackHoldExpiry => exact ⟨_, rfl, outside_tickBrings _ _ s⟩
  | integrityScrub => exact ⟨_, rfl, outside_tickBrings _ _ s⟩
  | storageFault code => exact ⟨_, rfl, outside_storageFault code s⟩
  | boundaryClose l => exact ⟨_, rfl, outside_tickBrings _ _ s⟩
  | sweep order => exact ⟨_, rfl, outside_sweep order s⟩
  | channelLost x => exact ⟨_, rfl, outside_channelLost x s⟩
  | drumGraceExpiry l => exact ⟨_, rfl, outside_drumGraceExpiry l s⟩
  | unknownRequest => exact ⟨_, rfl, outside_serve (fun _ _ => rfl) _ s⟩
  | writeEntryReadOnly => exact ⟨_, rfl, outside_serve (fun _ _ => rfl) _ s⟩
  | deleteEntryRefused => exact ⟨_, rfl, outside_serve (fun _ _ => rfl) _ s⟩
  | readTable => exact ⟨_, rfl, outside_serve_sized outside_readTableBody _ _ s⟩
  | writeEntryMatch => exact ⟨_, rfl, outside_serve_sized outside_writeMatchBody _ _ s⟩
  | pointInsert => exact ⟨_, rfl, outside_serve_sized outside_pointInsertBody _ _ s⟩
  | pointUpdate => exact ⟨_, rfl, outside_serve_sized outside_pointUpdateBody _ _ s⟩
  | writeEntryActuators => exact ⟨_, rfl, outside_serve_sized outside_writeActuatorBody _ _ s⟩
  | writeEntryBindings => exact ⟨_, rfl, outside_serve outside_bindingSized _ s⟩
  | writeEntryFeedSettings => exact ⟨_, rfl, outside_serve_sized outside_writeFeedSettingsBody _ _ s⟩
  | writeEntryRunback => exact ⟨_, rfl, outside_serve_sized outside_writeRunbackBody _ _ s⟩
  | writeEntryDispatch => exact ⟨_, rfl, outside_serve_sized outside_writeDispatchBody _ _ s⟩
  | writeEntryNotices => exact ⟨_, rfl, outside_serve_sized outside_writeNoticesBody _ _ s⟩
  | deleteEntryPoints => exact ⟨_, rfl, outside_serve_sized outside_deletePointBody _ _ s⟩
  | deleteEntryActuators => exact ⟨_, rfl, outside_serve_sized outside_deleteActuatorBody _ _ s⟩
  | setLimit => exact ⟨_, rfl, outside_serve_sized (fun _ s => outside_setLimit _ _ s) _ _ s⟩
  | setOverride => exact ⟨_, rfl, outside_serve_sized (fun _ s => outside_setOverride _ _ s) _ _ s⟩
  | clearOverride => exact ⟨_, rfl, outside_serve_sized (fun _ s => outside_clearOverride _ s) _ _ s⟩
  | freeze => exact ⟨_, rfl, outside_serve_confirmed (fun _ s => outside_freeze s) _ _ s⟩
  | setTime => exact ⟨_, rfl, outside_serve_sized (fun _ s => outside_setTime _ s) _ _ s⟩
  | setChannelService => exact ⟨_, rfl, outside_serve_sized outside_setChannelServiceBody _ _ s⟩
  | rearmChannel => exact ⟨_, rfl, outside_serve_sized outside_rearmChannelBody _ _ s⟩
  | enableRam => exact ⟨_, rfl, outside_serve_sized outside_enableRamBody _ _ s⟩
  | holdFeed => exact ⟨_, rfl, outside_serve_sized outside_holdFeedBody _ _ s⟩
  | clearHold => exact ⟨_, rfl, outside_serve_sized outside_clearHoldBody _ _ s⟩
  | trip => exact ⟨_, rfl, outside_serve_sized outside_tripBody _ _ s⟩
  | tripReset => exact ⟨_, rfl, outside_serve_confirmed outside_tripResetBody _ _ s⟩
  | stopRunback => exact ⟨_, rfl, outside_serve_sized outside_stopRunbackBody _ _ s⟩
  | newYear => exact ⟨_, rfl, outside_serve_confirmed outside_newYearBody _ _ s⟩
  | readStatus => exact ⟨_, rfl, outside_serve_sized (body := readStatusBody) (fun _ _ => rfl) _ _ s⟩
  | readCapture => exact ⟨_, rfl, outside_serve_sized outside_readCaptureBody _ _ s⟩
  | releaseCapture => exact ⟨_, rfl, outside_serve_sized outside_releaseCaptureBody _ _ s⟩
  | clearAttention => exact ⟨_, rfl, outside_serve_sized outside_clearAttentionBody _ _ s⟩
  | clearPortErrors => exact ⟨_, rfl, outside_serve_sized outside_clearPortErrorsBody _ _ s⟩
  | setNotices => exact ⟨_, rfl, outside_serve_sized outside_setNoticesBody _ _ s⟩
  | restart => exact ⟨_, rfl, outside_serve_confirmed outside_restartBody _ _ s⟩

/-- Settles O2, from the case split over the commands. -/
theorem execKeepsQueueAndIdentity : Obligations.ExecKeepsQueueAndIdentity := by
  intro c s
  obtain ⟨t, hx, hout⟩ := exec_keeps_outside c s
  obtain ⟨hpending, hidentity⟩ := Prod.mk.inj hout
  exact ⟨t, hx, hpending, hidentity⟩

end Sys2Proof.Machine
end

section
/-! SUPPORT. The transmit side of the frame path: what the arbiter sends (R33 to R35), how an originated command enters its
queue (R28 to R31, R89, R90), what a rewrite request leaves (R36). -/

namespace Sys2Proof.Machine

/-! ### The arbiter (R33 to R35) -/

/-- The arbiter's choice is the frame of R33's table. -/
theorem Port.choice_of_sends {q q' : Port} {f : Frame} (h : q.Sends f q') : q.choice = some (f, q') := by
  cases h with
  | urgent w ws h => simp [Port.choice, h]
  | turn w ws hu h hc => simp [Port.choice, hu, h, hc]
  | transit w ws hu h hc =>
    cases hr : q.routine with
    | nil => simp [Port.choice, hu, hr, h]
    | cons x xs =>
      have : q.credit ≠ 8 := hc (by simp [hr])
      simp [Port.choice, hu, hr, h, this]
  | routine w ws hu ht h =>
    by_cases hc : q.credit = 8
    · simp [Port.choice, hu, h, hc]
    · simp [Port.choice, hu, h, ht, hc]

theorem Port.choice_of_quiet {q : Port} (h : q.Quiet) : q.choice = none := by
  obtain ⟨hu, hr, ht⟩ := h
  simp [Port.choice, hu, hr, ht]

theorem Port.start_of_sends {q q' : Port} {f : Frame} (hl : q.linkUp = true) (ht : q.transmitting = none)
    (h : q.Sends f q') : q.start = { q' with transmitting := some f } := by
  simp [Port.start, hl, ht, Port.choice_of_sends h]

theorem Port.start_of_quiet {q : Port} (h : q.Quiet) : q.start = q := by
  simp [Port.start, Port.choice_of_quiet h]

/-- What stands in a port's queues decides what it sends, not its link or its transmitter. -/
theorem Port.Sends.relink {q q' : Port} {f : Frame} (h : q.Sends f q') (b : Bool) (x : Option Frame) :
    Port.Sends { q with linkUp := b, transmitting := x } f { q' with linkUp := b, transmitting := x } := by
  cases h with
  | urgent w ws h => exact .urgent w ws h
  | turn w ws hu h hc => exact .turn w ws hu h hc
  | transit w ws hu h hc => exact .transit w ws hu h hc
  | routine w ws hu ht h => exact .routine w ws hu ht h

theorem Port.Sends.linkUp_eq {q q' : Port} {f : Frame} (h : q.Sends f q') : q'.linkUp = q.linkUp := by
  cases h <;> rfl

/-- A port with its link UP and its transmitter free, whatever these were before, sends the frame of R33's table. -/
theorem Port.start_relinked {q q' : Port} {f : Frame} (h : q.Sends f q') :
    Port.start { q with linkUp := true, transmitting := none } =
      { q' with linkUp := true, transmitting := some f } :=
  Port.start_of_sends rfl rfl (h.relink true none)

theorem Port.eq_relinked {q : Port} {b : Bool} {x : Option Frame} (hl : q.linkUp = b) (ht : q.transmitting = x) :
    q = { q with linkUp := b, transmitting := x } := by
  subst hl ht
  rfl

theorem State.modPort_eq {s : State} {p : PortId} {f : Port → Port} {q : Port} (h : f (s.port p) = q) :
    s.modPort p f = { s with ports := s.ports.set p q } := by
  subst h
  rfl

theorem State.modPort_of_fixed {s : State} {p : PortId} {f : Port → Port} (h : f (s.port p) = s.port p) :
    s.modPort p f = s := by
  rw [State.modPort_eq h]
  exact congrArg (fun ps => { s with ports := ps }) (PerPort.set_get_self _ _)

theorem exec_linkDown {p : PortId} {s : State} (hr : s.resetAsserted = false) :
    exec (.linkDown p) s = .next (s.modPort p fun q => { q with linkUp := false, transmitting := none }) := by
  have : linkDown p s = s.modPort p fun q => { q with linkUp := false, transmitting := none } := by
    simp [linkDown, unlessHeld, hr]
  exact congrArg Host.Outcome.next this

theorem exec_linkUp {p : PortId} {s : State} (hr : s.resetAsserted = false) (hl : (s.port p).linkUp = false) :
    exec (.linkUp p) s = .next (s.modPort p fun q => Port.start { q with linkUp := true }) := by
  have : linkUp p s = s.modPort p fun q => Port.start { q with linkUp := true } := by
    simp [linkUp, unlessHeld, hr, hl]
  exact congrArg Host.Outcome.next this

theorem exec_transmissionStart {p : PortId} {s : State} (hr : s.resetAsserted = false) :
    exec (.transmissionStart p) s = .next (s.modPort p Port.start) := by
  have : transmissionStart p s = s.modPort p Port.start := by
    simp [transmissionStart, unlessHeld, hr]
  exact congrArg Host.Outcome.next this

theorem exec_transmissionCompletion {p : PortId} {s : State} {g : Frame} (hr : s.resetAsserted = false)
    (ht : (s.port p).transmitting = some g) :
    exec (.transmissionCompletion p) s = .next (s.modPort p fun q => Port.start { q with transmitting := none }) := by
  have : transmissionCompletion p s = s.modPort p fun q => Port.start { q with transmitting := none } := by
    simp [transmissionCompletion, unlessHeld, hr, ht]
  exact congrArg Host.Outcome.next this

theorem modPort_start_of_sends {s : State} {p : PortId} {g : Port → Port} {f : Frame} {q : Port}
    (hg : g (s.port p) = { s.port p with linkUp := true, transmitting := none }) (h : (s.port p).Sends f q) :
    (s.modPort p fun q => Port.start (g q)) =
      { s with ports := s.ports.set p { q with linkUp := true, transmitting := some f } } :=
  State.modPort_eq ((congrArg Port.start hg).trans (Port.start_relinked h))

theorem modPort_start_of_quiet {s : State} {p : PortId} {g : Port → Port} (h : (g (s.port p)).Quiet) :
    (s.modPort p fun q => Port.start (g q)) = { s with ports := s.ports.set p (g (s.port p)) } :=
  State.modPort_eq (Port.start_of_quiet h)

end Sys2Proof.Machine
end

section
/-! The statement on links and transmissions. -/

namespace Sys2Proof.Machine

/-- Settles O9: each command starts the port it has relinked, and a start sends what `Port.choice` chooses. -/
theorem linksAndTransmissions : Obligations.LinksAndTransmissions := by
  intro p s hr
  have up {q : Port} {f : Frame} (hl : (s.port p).linkUp = true) (h : (s.port p).Sends f q) :
      { q with linkUp := true, transmitting := some f } = { q with transmitting := some f } := by
    rw [← h.linkUp_eq] at hl
    rw [← hl]
  refine ⟨exec_linkDown hr, fun hl ht => ?_, fun hl ht => ?_, fun g hl ht => ?_⟩
  · have hg : { s.port p with linkUp := true } = { s.port p with linkUp := true, transmitting := none } := by
      rw [← ht]
    rw [exec_linkUp hr hl]
    exact ⟨fun f q h => congrArg Host.Outcome.next (modPort_start_of_sends hg h),
      fun h => congrArg Host.Outcome.next (modPort_start_of_quiet (g := fun q => { q with linkUp := true }) h)⟩
  · rw [exec_transmissionStart hr]
    refine ⟨fun f q h => ?_, fun h => ?_⟩
    · rw [← up hl h]
      exact congrArg Host.Outcome.next (modPort_start_of_sends (g := id) (Port.eq_relinked hl ht) h)
    · exact congrArg Host.Outcome.next (State.modPort_of_fixed (Port.start_of_quiet h))
  · have hg : { s.port p with transmitting := none } = { s.port p with linkUp := true, transmitting := none } := by
      rw [← hl]
    rw [exec_transmissionCompletion hr ht]
    refine ⟨fun f q h => ?_, fun h => ?_⟩
    · rw [← up hl h]
      exact congrArg Host.Outcome.next (modPort_start_of_sends (g := fun q => { q with transmitting := none }) hg h)
    · exact congrArg Host.Outcome.next (modPort_start_of_quiet (g := fun q => { q with transmitting := none }) h)

end Sys2Proof.Machine
end

section
/-! SUPPORT. How an originated command enters its FIELD queue (R28 to R31, R89, R90). -/

namespace Sys2Proof

theorem PerPort.set_set {α : Type} (x : PerPort α) (p : PortId) (a b : α) : (x.set p a).set p b = x.set p b := by
  cases p <;> rfl

end Sys2Proof

namespace Sys2Proof.Machine

/-! ### The last forwarded value (R89) -/

/-- An actuator record without its last forwarded value. -/
def Actuator.lessLast (a : Actuator) : Actuator := { a with last := none, setter := none }

theorem sameActuators_iff {s t : State} :
    SameActuators s t ↔ t.actuators.map (Option.map Actuator.lessLast) = s.actuators.map (Option.map Actuator.lessLast) :=
  Iff.rfl

/-- An actuator record that is there stands within the table. -/
theorem State.getElem?_of_actuator {s : State} {i : Nat} {a : Actuator} (h : s.actuator i = some a) :
    s.actuators[i]? = some (some a) := by
  unfold State.actuator at h
  rw [List.getD_eq_getElem?_getD] at h
  cases hi : s.actuators[i]? with
  | none => simp [hi] at h
  | some x => simpa [hi] using h

/-- A record rewritten in its place, but for the last forwarded value, leaves the table the same. -/
theorem sameActuators_setActuator {s : State} {i : Nat} {a b : Actuator} (h : s.actuator i = some a)
    (hb : b.lessLast = a.lessLast) : SameActuators s (s.setActuator i (some b)) := by
  have hi := State.getElem?_of_actuator h
  refine sameActuators_iff.mpr (List.ext_getElem? fun k => ?_)
  rw [State.setActuator_actuators, List.getElem?_map, List.getElem?_map, List.getElem?_set]
  split
  · rename_i hk
    subst hk
    split
    · simp [hi, hb]
    · rename_i hn
      rw [List.getElem?_eq_none (Nat.not_lt.mp hn)] at hi
      cases hi
  · rfl

theorem sameActuators_refl (s : State) : SameActuators s s := rfl

/-- Setting the last forwarded value writes actuator records alone. -/
theorem setLast_eq (s : State) (n : Nat) (v : Int) (m : Nat) :
    s.setLast n v m = { s with actuators := (s.setLast n v m).actuators } := by
  unfold State.setLast
  split
  · split <;> rfl
  · rfl

theorem setLast_of_entry {s : State} {n e : Nat} {a : Actuator} (he : s.entryOf n = some e)
    (ha : s.actuator e = some a) (v : Int) (m : Nat) :
    s.setLast n v m = s.setActuator e (some { a with last := some v, setter := some m }) := by
  unfold State.setLast
  rw [he]
  dsimp only
  rw [ha]

theorem sameActuators_setLast (s : State) (n : Nat) (v : Int) (m : Nat) : SameActuators s (s.setLast n v m) := by
  unfold State.setLast
  split
  · split
    · rename_i a ha
      exact sameActuators_setActuator ha rfl
    · rfl
  · rfl

/-! ### A command that enters -/

/-- A SET that enters as the waiting frame of a mark sets the last forwarded value; another command sets none (R89). -/
def State.noteSet (s : State) (c : Command) (mark : Nat) : State :=
  match c.verb with
  | .set => s.setLast c.number c.value mark
  | _ => s

theorem noteSet_eq (s : State) (c : Command) (m : Nat) :
    s.noteSet c m = { s with actuators := (s.noteSet c m).actuators } := by
  unfold State.noteSet
  split
  · exact setLast_eq s _ _ _
  · rfl

/-- What a SET notes depends on the actuator table alone. -/
theorem noteSet_congr {s t : State} (h : t.actuators = s.actuators) {c : Command} {m : Nat} :
    (t.noteSet c m).actuators = (s.noteSet c m).actuators := by
  unfold State.noteSet State.setLast State.entryOf State.actuator State.setActuator
  rw [h]
  split
  · split
    · split <;> simp [h]
    · exact h
  · exact h

theorem noteSet_of_set {c : Command} (h : c.verb = .set) (s : State) (m : Nat) :
    s.noteSet c m = s.setLast c.number c.value m := by
  simp [State.noteSet, h]

theorem noteSet_of_not_set {c : Command} (h : c.verb ≠ .set) (s : State) (m : Nat) : s.noteSet c m = s := by
  unfold State.noteSet
  split
  · rename_i hv
    exact absurd hv h
  · rfl

theorem sameActuators_noteSet (s : State) (c : Command) (m : Nat) : SameActuators s (s.noteSet c m) := by
  unfold State.noteSet
  split
  · exact sameActuators_setLast s _ _ _
  · rfl

/-- A port once an URGENT command for an actuator has entered: older ROUTINE ones for it are gone (R30). -/
def Port.superseded (q : Port) (pr : Priority) (number : Nat) : Port :=
  match pr with
  | .urgent => { q with routine := q.routine.filter fun w => !w.commands number }
  | .routine => q

theorem commandEntered_eq (s : State) (pr : Priority) (c : Command) (m : Nat) :
    s.commandEntered pr c m = { s with
      actuators := (s.noteSet c m).actuators
      ports := s.ports.set .field ((s.port .field).superseded pr c.number) } := by
  have hn : s.commandEntered pr c m = match pr with
      | .urgent => (s.noteSet c m).supersede c.number
      | .routine => s.noteSet c m := rfl
  rw [hn, noteSet_eq]
  cases pr <;> rfl

/-- What follows the entry of a command into a FIELD queue that has become part of the port `q`. -/
theorem commandEntered_of_placed (s : State) (q : Port) (n : Nat) (pr : Priority) (c : Command) (m : Nat) :
    State.commandEntered { s with nextMark := n, ports := s.ports.set .field q } pr c m = { s with
      actuators := (s.noteSet c m).actuators
      nextMark := n
      ports := s.ports.set .field (q.superseded pr c.number) } := by
  have hn := noteSet_congr (s := s) (t := { s with nextMark := n, ports := s.ports.set .field q }) (c := c) (m := m) rfl
  rw [commandEntered_eq, hn]
  simp only [State.port, PerPort.get_set_self, PerPort.set_set]

/-- A command for which one waits already takes over the first of them (R29). -/
theorem originateCommand_of_waiting {pr : Priority} {c : Command} {s : State} {before after : List Waiting} {w : Waiting}
    (hq : (s.port .field).origin pr = before ++ w :: after) (hb : ∀ x ∈ before, x.commands c.number = false)
    (hw : w.commands c.number = true) :
    originateCommand pr c s = { s with
      actuators := (s.noteSet c w.mark).actuators
      ports := s.ports.set .field (((s.port .field).setOrigin pr
        (before ++ { w with frame := { w.frame with payload := c.bytes } } :: after)).superseded pr c.number) } := by
  have hf : ((s.port .field).origin pr).find? (·.commands c.number) = some w := by
    rw [hq, List.find?_append, List.find?_eq_none.mpr fun x hx => by simp [hb x hx], List.find?_cons, hw]
    rfl
  have hc : coalesceInto c ((s.ports.get .field).origin pr) = _ :=
    (congrArg (coalesceInto c) hq).trans (coalesceInto_first before after hb hw)
  unfold originateCommand
  rw [hf]
  dsimp only
  refine (commandEntered_of_placed s _ s.nextMark pr c w.mark).trans ?_
  dsimp only
  rw [hc]
  rfl

/-- A command for which none waits takes a slot at the tail, with the counter's SEQ (R28). -/
theorem originateCommand_of_room {pr : Priority} {c : Command} {s : State}
    (hn : ∀ w ∈ (s.port .field).origin pr, w.commands c.number = false)
    (hr : ((s.port .field).origin pr).length < s.originCapacity .field pr) :
    originateCommand pr c s = { s with
      actuators := (s.noteSet c s.nextMark).actuators
      nextMark := s.nextMark + 1
      ports := s.ports.set .field (Port.superseded { (s.port .field).setOrigin pr ((s.port .field).origin pr ++
        [⟨s.nextMark, s.originFrame .field 255 kindCommand c.bytes⟩]) with seq := ((s.port .field).seq + 1) % 256 }
          pr c.number) } := by
  have hf : ((s.port .field).origin pr).find? (·.commands c.number) = none :=
    List.find?_eq_none.mpr fun w hw => by simp [hn w hw]
  unfold originateCommand State.enterOrigin
  rw [hf, if_pos hr]
  exact commandEntered_of_placed s _ (s.nextMark + 1) pr c s.nextMark

/-- How a command meets its queue: one for its actuator waits, or none does and there is room, or none does and it is
lost (R29, R28, R31). -/
theorem originateCommand_outcomes (pr : Priority) (c : Command) (s : State) :
    let q := (s.port .field).origin pr
    (∃ before w after, q = before ++ w :: after ∧ (∀ x ∈ before, x.commands c.number = false) ∧
      w.commands c.number = true) ∨
    ((∀ w ∈ q, w.commands c.number = false) ∧ q.length < s.originCapacity .field pr) ∨
    ((∀ w ∈ q, w.commands c.number = false) ∧ s.originCapacity .field pr ≤ q.length) := by
  intro q
  cases hf : q.find? (·.commands c.number) with
  | some w =>
    obtain ⟨hw, before, after, hq, hb⟩ := List.find?_eq_some_iff_append.mp hf
    exact .inl ⟨before, w, after, hq, fun x hx => by simpa using hb x hx, hw⟩
  | none =>
    have hn : ∀ w ∈ q, w.commands c.number = false := fun w hw => by
      simpa using List.find?_eq_none.mp hf w hw
    exact .inr ((Nat.lt_or_ge _ _).imp (⟨hn, ·⟩) (⟨hn, ·⟩))

end Sys2Proof.Machine
end

section
/-! SUPPORT. The record of a WRITE_ENTRY on DISPATCH (R153, R155), and what an originated command leaves (R28 to R31). -/

namespace Sys2Proof.Machine

/-! ### WRITE_ENTRY on DISPATCH -/

/-- The record's two fields in their places. -/
theorem writeDispatchBody_eq (station follow : Byte) (s : State) :
    writeDispatchBody [7, 0, 0, station, follow] s =
      if 250 < station.toNat ∨ 1 < follow.toNat then answer .refusedRange s
      else
        let u := { s with dispatch := { s.dispatch with gateway := station.toNat, follow := follow.toNat == 1 } }
        answer .done (if !s.dispatch.follow && follow.toNat == 1 then followAllowed u else u) := by
  have hi : indexArg [7, 0, 0, station, follow] = 0 := by simp [indexArg, u16At, byteAt]
  have hs : byteAt (recordArg [7, 0, 0, station, follow]) 0 = station.toNat := rfl
  have hf : byteAt (recordArg [7, 0, 0, station, follow]) 1 = follow.toNat := rfl
  unfold writeDispatchBody
  rw [hi, hs, hf]
  rfl

theorem writeDispatch_refused {station follow : Byte} (h : 250 < station.toNat ∨ 1 < follow.toNat) (s : State) :
    writeDispatchBody [7, 0, 0, station, follow] s = answer .refusedRange s := by
  rw [writeDispatchBody_eq]
  exact if_pos h

theorem writeDispatch_done {station follow : Byte} (h1 : station.toNat ≤ 250) (h2 : follow.toNat ≤ 1) (s : State) :
    let u := { s with dispatch := { s.dispatch with gateway := station.toNat, follow := follow == 1 } }
    writeDispatchBody [7, 0, 0, station, follow] s =
      answer .done (if !s.dispatch.follow && follow == 1 then followAllowed u else u) := by
  intro u
  have hf : (follow.toNat == 1) = (follow == 1) := by
    have : follow.toNat = 1 ↔ follow = 1 := ⟨fun h => BitVec.eq_of_toNat_eq h, congrArg BitVec.toNat⟩
    rw [Bool.eq_iff_iff, beq_iff_eq, beq_iff_eq]
    exact this
  have hn : ¬ (250 < station.toNat ∨ 1 < follow.toNat) := by omega
  rw [writeDispatchBody_eq, if_neg hn]
  dsimp only
  rw [hf]

/-- The comparison of R153 finds no bound entry, or an empty one, or the allowed load forwarded last. -/
theorem followAllowed_of_settled {s : State}
    (h : ∀ e, s.plantBinding.turbineLoad = some e → ∀ a, s.actuator e = some a →
      a.last = some (s.dispatch.allowed : Int)) : followAllowed s = s := by
  unfold followAllowed
  split
  · rename_i e he
    split
    · rfl
    · rename_i hne
      cases ha : s.actuator e with
      | none => exact originate_of_empty ha
      | some a =>
        refine absurd ?_ hne
        simp [State.lastForwarded, ha, h e he a ha]
  · rfl

/-- The comparison of R153 finds a bound entry whose last forwarded value is absent or another. -/
theorem followAllowed_of_differing {s : State} {e : Nat} {a : Actuator} (he : s.plantBinding.turbineLoad = some e)
    (ha : s.actuator e = some a) (hl : a.last ≠ some (s.dispatch.allowed : Int)) :
    followAllowed s = originateCommand .routine ⟨a.number, .set, s.dispatch.allowed⟩ s := by
  unfold followAllowed
  rw [he]
  dsimp only
  rw [if_neg (by simpa [State.lastForwarded, ha] using hl)]
  exact originate_of_entry ha

/-- An execution that ends in one action on the state it began on. -/
theorem serve_act {row : Instr} {r : Request} {rest : List Request} {s u : State} {n : Nat} {act : State → State}
    {body : List Byte → State → Answer} (h : Ready row r rest s) (hn : r.args.length = n)
    (hb : body r.args (s.beginExecution rest) = answer .done (act (u.beginExecution rest)))
    (hu : u.attention = s.attention) (hreq : ∀ v, (act v).requests = v.requests) :
    serve row (sized n body) s = withReply r rest .done [] (asEvent act (u.beginExecution rest)) := by
  have hnotices : noticesSince (s.beginExecution rest) (act (u.beginExecution rest)) =
      asEvent act (u.beginExecution rest) := noticesSince_congr (by exact hu.symm) _
  have hr : (asEvent act (u.beginExecution rest)).requests = rest :=
    (congrArg State.requests (lessNotices_noticesSince _ _)).trans (hreq _)
  rw [serve_of_ready h, sized_of_length _ hn, hb]
  unfold Answer.noticed answer
  rw [hnotices, placeReply_eq_withReply]
  exact congrArg (withReply r · .done [] _) hr

/-- The clause of O37 on WRITE_ENTRY. -/
theorem dispatchWrite {r : Request} {rest : List Request} {station follow : Byte} {s : State}
    (h : Ready .writeEntryDispatch r rest s) (ha : r.args = [7, 0, 0, station, follow]) (h1 : station.toNat ≤ 250)
    (h2 : follow.toNat ≤ 1) :
    let u := { s with dispatch := { s.dispatch with gateway := station.toNat, follow := follow == 1 } }
    ((s.dispatch.follow = true ∨ follow = 0#8) ∨
      (∀ e, s.plantBinding.turbineLoad = some e → ∀ a, s.actuator e = some a →
        a.last = some (s.dispatch.allowed : Int)) →
      exec .writeEntryDispatch s = .next (withReply r rest .done [] u)) ∧
    (∀ e a, s.dispatch.follow = false → follow = 1#8 → s.plantBinding.turbineLoad = some e → s.actuator e = some a →
      a.last ≠ some (s.dispatch.allowed : Int) →
      exec .writeEntryDispatch s = .next (withReply r rest .done []
        (asEvent (originateCommand .routine ⟨a.number, .set, s.dispatch.allowed⟩) (u.beginExecution rest)))) := by
  intro u
  have hl : r.args.length = 5 := by rw [ha]; rfl
  have hb := writeDispatch_done h1 h2 (s.beginExecution rest)
  rw [← ha] at hb
  refine ⟨fun hs => congrArg Host.Outcome.next (serve_sized h hl (hb.trans ?_) rfl), fun e a hf h1 he hae hne =>
    congrArg Host.Outcome.next (serve_act h hl (hb.trans ?_) rfl fun v => ?_)⟩
  · refine congrArg (answer .done) (?_ : _ = u.beginExecution rest)
    rcases hs with (hs | hs) | hs
    · exact if_neg (by simp [hs])
    · exact if_neg (by simp [hs])
    · split
      · exact followAllowed_of_settled hs
      · rfl
  · refine congrArg (answer .done) ((if_pos (by simp [hf, h1])).trans ?_)
    exact followAllowed_of_differing (s := u.beginExecution rest) he hae hne
  · exact read_of_erased State.lessOrigins (fun _ => rfl) (lessOrigins_originateCommand _ _ v)

/-! ### What an originated command leaves -/

theorem originCapacity_field (s : State) (pr : Priority) :
    s.originCapacity .field pr = if pr = .urgent then 8 else 16 := by
  cases pr <;> rfl

/-- The actuator table after a command has met its queue: a SET that entered is noted, and nothing else is (R89). -/
theorem actuators_originateCommand (pr : Priority) (c : Command) (s : State) :
    let q := (s.port .field).origin pr
    (((∃ w ∈ q, w.commands c.number = true) ∨ q.length < s.originCapacity .field pr) →
      ∃ m, (originateCommand pr c s).actuators = (s.noteSet c m).actuators) ∧
    (∃ u, (originateCommand pr c s).actuators = u.actuators ∧ (u = s ∨ ∃ m, u = s.noteSet c m)) := by
  intro q
  rcases originateCommand_outcomes pr c s with ⟨before, w, after, hq, hb, hw⟩ | ⟨hn, hr⟩ | ⟨hn, hf⟩
  · have he := congrArg State.actuators (originateCommand_of_waiting hq hb hw)
    exact ⟨fun _ => ⟨w.mark, he⟩, s.noteSet c w.mark, he, .inr ⟨w.mark, rfl⟩⟩
  · have he := congrArg State.actuators (originateCommand_of_room hn hr)
    exact ⟨fun _ => ⟨s.nextMark, he⟩, s.noteSet c s.nextMark, he, .inr ⟨s.nextMark, rfl⟩⟩
  · have he : (originateCommand pr c s).actuators = s.actuators := by
      rw [originateCommand_lost hn hf]
      rfl
    refine ⟨fun h => absurd h ?_, s, he, .inl rfl⟩
    rintro (⟨w, hw, hc⟩ | hl)
    · simp [hn w hw] at hc
    · exact absurd hl (Nat.not_lt.mpr hf)

theorem sameActuators_originateCommand (pr : Priority) (c : Command) (s : State) :
    SameActuators s (originateCommand pr c s) := by
  obtain ⟨u, he, rfl | ⟨m, rfl⟩⟩ := (actuators_originateCommand pr c s).2
  · exact congrArg (List.map _) he
  · exact (congrArg (List.map _) he).trans (sameActuators_noteSet s c m)

/-- A noted SET is its entry's last forwarded value, and no other entry's. -/
theorem actuator_noteSet {s : State} {c : Command} {e : Nat} {a : Actuator} (hv : c.verb = .set)
    (he : s.entryOf c.number = some e) (ha : s.actuator e = some a) (m : Nat) :
    ((s.noteSet c m).actuator e).map (·.last) = some (some c.value) ∧
      ∀ k, k ≠ e → (s.noteSet c m).actuator k = s.actuator k := by
  have hl : e < s.actuators.length := (List.getElem?_eq_some_iff.mp (State.getElem?_of_actuator ha)).1
  rw [noteSet_of_set hv, setLast_of_entry he ha]
  refine ⟨?_, fun k hk => ?_⟩
  · rw [State.actuator_setActuator, if_pos ⟨rfl, hl⟩]
    rfl
  · rw [State.actuator_setActuator, if_neg fun h => hk h.1.symm]

theorem originLoss_spec (p : PortId) (s : State) :
    { originLoss p s with attention := s.attention } = s ∧
      (∀ k, k ≠ .originLoss → (originLoss p s).cause k = s.cause k) ∧
      (s.attention.causes.length = 15 →
        ((originLoss p s).cause .originLoss).status = true ∧
          ((originLoss p s).cause .originLoss).held = some ⟨none, s.plantTime, p.code⟩) := by
  refine ⟨rfl, fun k hk => s.cause_modCause_ne _ hk, fun hl => ?_⟩
  have := State.cause_modCause_self .originLoss
    (fun r => { r with status := true, held := some ⟨none, s.plantTime, p.code⟩ }) hl
  have hc : (originLoss p s).cause .originLoss = _ := this
  rw [hc]
  exact ⟨rfl, rfl⟩

end Sys2Proof.Machine
end

section
/-! The statement on WRITE_ENTRY on DISPATCH and originated commands. -/

namespace Sys2Proof.Machine

/-- Settles O37: the write by its two outcomes, an originated command by how it meets its queue. -/
theorem dispatchWriteAndOriginatedCommands : Obligations.DispatchWriteAndOriginatedCommands := by
  refine ⟨fun r rest station follow s h ha => ⟨fun hbad => ?_, fun h1 h2 => ?_⟩, fun pr c s => ?_⟩
  · have hl : r.args.length = 5 := by rw [ha]; rfl
    have hb := writeDispatch_refused hbad (s.beginExecution rest)
    rw [← ha] at hb
    exact congrArg Host.Outcome.next (serve_sized h hl hb rfl)
  · obtain ⟨settled, differing⟩ := dispatchWrite h ha h1 h2
    refine ⟨fun hs => settled (.inl hs), fun hf hone => ⟨fun hnone => settled (.inr ?_), fun e he =>
      ⟨fun hnone => settled (.inr ?_), fun a hae => ⟨fun hlast => settled (.inr ?_), fun hne => ?_⟩⟩⟩⟩
    · simp [hnone]
    · intro e' he' a ha'
      rw [he] at he'
      cases he'
      simp [hnone] at ha'
    · intro e' he' a' ha'
      rw [he] at he'
      cases he'
      rw [hae] at ha'
      cases ha'
      exact hlast
    · exact differing e a hf hone he hae hne
  · have hcap := originCapacity_field s pr
    obtain ⟨noted, notedOrKept⟩ := actuators_originateCommand pr c s
    refine ⟨fun before w after hq hb hw => ?_, fun hn hr => ?_, fun hn hf => ?_, fun hv => ?_, fun e a hv he hae =>
      ⟨fun hin => ?_, fun k hk => ?_, sameActuators_originateCommand pr c s⟩⟩
    · rw [originateCommand_of_waiting hq hb hw]
      cases pr <;> rfl
    · rw [← hcap] at hr
      rw [originateCommand_of_room hn hr]
      cases pr <;> rfl
    · rw [← hcap] at hf
      rw [originateCommand_lost hn hf]
      exact originLoss_spec .field s
    · obtain ⟨u, hu, rfl | ⟨m, rfl⟩⟩ := notedOrKept
      · exact hu
      · rw [hu, noteSet_of_not_set hv]
    · obtain ⟨m, hm⟩ := noted (hcap ▸ hin)
      rw [show (originateCommand pr c s).actuator e = (s.noteSet c m).actuator e from congrArg (·.getD e none) hm]
      exact (actuator_noteSet hv he hae m).1
    · obtain ⟨u, hu, hs⟩ := notedOrKept
      have hk' : (originateCommand pr c s).actuator k = u.actuator k := congrArg (·.getD k none) hu
      rcases hs with rfl | ⟨m, rfl⟩
      · exact hk'
      · exact hk'.trans ((actuator_noteSet hv he hae m).2 k hk)

end Sys2Proof.Machine
end

section
/-! SUPPORT. What a rewrite request leaves (R36, R89). -/

namespace Sys2Proof.Machine

theorem u16At_payload {number : Nat} (h : number < 65536) (rest : List Byte) : u16At (be16 number ++ rest) 0 = number := by
  have := u16At_be16 [] rest h
  rwa [List.nil_append, List.length_nil] at this

/-- The command of a frame read from the fields of its record (R8). -/
theorem command?_eq_some {f : Frame} {c : Command} (h : f.command? = some c) :
    f.kind = kindCommand ∧ f.payload.length = 5 ∧ Verb.ofCode? (byteAt f.payload 2) = some c.verb ∧
      u16At f.payload 0 = c.number ∧ s16At f.payload 3 = c.value := by
  unfold Frame.command? at h
  split at h
  · rename_i hk
    obtain ⟨v, hv, rfl⟩ := Option.map_eq_some_iff.mp h
    exact ⟨hk.1, hk.2, hv, rfl, rfl⟩
  · cases h

/-- A command with another value carries that value, where the field holds it. -/
theorem command?_withValue {f : Frame} {c : Command} {v : Int} (h : f.command? = some c) (h1 : -32768 ≤ v)
    (h2 : v ≤ 32767) : (f.withValue v).command? = some { c with value := v } := by
  obtain ⟨hk, hl, hv, hn, -⟩ := command?_eq_some h
  have hlen : (f.payload.take 3).length = 3 := by simp [hl]
  have hvalue : s16At (f.payload.take 3 ++ sbe16 v) 3 = v := by
    have := s16At_sbe16 (f.payload.take 3) [] h1 h2
    rwa [hlen, List.append_nil] at this
  have head (i : Nat) (hi : i < 3) : byteAt (f.payload.take 3 ++ sbe16 v) i = byteAt f.payload i := by
    have hi' : i < (f.payload.take 3).length := by omega
    simp only [byteAt, List.getD_eq_getElem?_getD, List.getElem?_append_left hi', List.getElem?_take_of_lt hi]
  have hnumber : u16At (f.payload.take 3 ++ sbe16 v) 0 = c.number := by
    rw [← hn, u16At, u16At, head 0 (by omega), head 1 (by omega)]
  unfold Frame.command? Frame.withValue
  rw [if_pos ⟨hk, by simp [hl, sbe16, be16_length]⟩, head 2 (by omega), hv, hnumber, hvalue]
  rfl

/-- The command of a frame stands in its kind and payload alone. -/
theorem command?_rewrittenTo {f : Frame} {c : Command} {v : Int} (h : f.command? = some c) (h1 : -32768 ≤ v)
    (h2 : v ≤ 32767) : (f.rewrittenTo v).command? = some { c with value := v } :=
  (show (f.rewrittenTo v).command? = (f.withValue v).command? from rfl).trans (command?_withValue h h1 h2)

/-- A waiting frame that qualifies is a SET for the actuator with a value beyond the bound. -/
theorem qualifies_iff {w : Waiting} {number : Nat} {b : Bound} :
    w.qualifies number b = true ↔ ∃ v, w.frame.command? = some ⟨number, .set, v⟩ ∧ b.beyond v = true := by
  unfold Waiting.qualifies
  split
  · rename_i n v h
    rw [h]
    simp only [Bool.and_eq_true, beq_iff_eq, Option.some.injEq, Command.mk.injEq, true_and]
    constructor
    · rintro ⟨rfl, hb⟩
      exact ⟨v, ⟨rfl, rfl⟩, hb⟩
    · rintro ⟨v', ⟨rfl, rfl⟩, hb⟩
      exact ⟨rfl, hb⟩
  · rename_i h
    simp only [Bool.false_eq_true, false_iff]
    rintro ⟨v, hv, -⟩
    exact h number v hv

/-- No value lies beyond itself. -/
theorem Bound.beyond_value (b : Bound) : b.beyond b.value = false := by
  cases b <;> simp [Bound.beyond, Bound.value]

/-- A frame that now carries the bound does not qualify. -/
theorem qualifies_of_bound {w : Waiting} {number : Nat} {b : Bound} (h : w.frame.command? = some ⟨number, .set, b.value⟩) :
    w.qualifies number b = false := by
  rw [Bool.eq_false_iff]
  intro hq
  obtain ⟨v, hv, hb⟩ := qualifies_iff.mp hq
  rw [h] at hv
  cases hv
  simp [b.beyond_value] at hb

section
variable {number : Nat} {b : Bound} (h1 : -32768 ≤ b.value) (h2 : b.value ≤ 32767)
include h1 h2

theorem qualifies_rewriteTransit (w : Waiting) : (rewriteTransit number b w).qualifies number b = false := by
  unfold rewriteTransit
  split
  · rename_i hq
    obtain ⟨v, hv, -⟩ := qualifies_iff.mp hq
    exact qualifies_of_bound (command?_rewrittenTo hv h1 h2)
  · rename_i hq
    simpa using hq

theorem qualifies_rewriteOrigin (w : Waiting) : (rewriteOrigin number b w).qualifies number b = false := by
  unfold rewriteOrigin
  split
  · rename_i hq
    obtain ⟨v, hv, -⟩ := qualifies_iff.mp hq
    exact qualifies_of_bound (command?_withValue hv h1 h2)
  · rename_i hq
    simpa using hq

end

theorem mark_rewriteTransit (number : Nat) (b : Bound) (w : Waiting) : (rewriteTransit number b w).mark = w.mark := by
  unfold rewriteTransit
  split <;> rfl

theorem mark_rewriteOrigin (number : Nat) (b : Bound) (w : Waiting) : (rewriteOrigin number b w).mark = w.mark := by
  unfold rewriteOrigin
  split <;> rfl

/-- The FIELD port with its waiting frames rewritten (R36). -/
def Port.rewritten (q : Port) (number : Nat) (b : Bound) : Port :=
  { q with
    transit := q.transit.map (rewriteTransit number b)
    urgent := q.urgent.map (rewriteOrigin number b)
    routine := q.routine.map (rewriteOrigin number b) }

/-- A rewrite changes the waiting frames of FIELD and a last forwarded value. -/
theorem rewrite_eq (s : State) (number : Nat) (b : Bound) :
    (s.rewrite number b).1 = { s with
      actuators := (s.rewrite number b).1.actuators
      ports := s.ports.set .field ((s.port .field).rewritten number b) } := by
  unfold State.rewrite State.reportRewrites
  dsimp only
  split
  · split
    · split
      · split <;> rfl
      · rfl
    · rfl
  · rfl

theorem sameActuators_rewrite (s : State) (number : Nat) (b : Bound) : SameActuators s (s.rewrite number b).1 := by
  unfold State.rewrite State.reportRewrites
  dsimp only
  split
  · split
    · rename_i a ha
      split
      · split
        · exact sameActuators_setActuator (s := s.modPort .field fun q => q.rewritten number b) ha rfl
        · rfl
      · rfl
    · rfl
  · rfl

theorem field_rewrite (s : State) (number : Nat) (b : Bound) :
    (s.rewrite number b).1.port .field = (s.port .field).rewritten number b :=
  (congrArg (fun t => t.ports.get .field) (rewrite_eq s number b)).trans (PerPort.get_set_self s.ports .field _)

theorem supervisor_rewrite (s : State) (number : Nat) (b : Bound) :
    (s.rewrite number b).1.port .supervisor = s.port .supervisor :=
  (congrArg (fun t => t.ports.get .supervisor) (rewrite_eq s number b)).trans (rfl : (s.ports.set .field _).get .supervisor = _)

end Sys2Proof.Machine
end

section
/-! The statement on rewrite requests. -/

namespace Sys2Proof.Machine

/-- Settles O16: a rewritten frame carries the bound, which does not lie beyond itself. -/
theorem rewriteLeavesNoneBeyond : Obligations.RewriteLeavesNoneBeyond := by
  intro number b s h1 h2 t
  have hf : t.port .field = (s.port .field).rewritten number b := field_rewrite s number b
  rw [hf]
  refine ⟨fun w hw => ?_, ?_, ?_, ?_, supervisor_rewrite s number b, sameActuators_rewrite s number b⟩
  · simp only [Port.rewritten, List.mem_append, List.mem_map] at hw
    rcases hw with (⟨x, -, rfl⟩ | ⟨x, -, rfl⟩) | ⟨x, -, rfl⟩
    · exact qualifies_rewriteTransit h1 h2 x
    · exact qualifies_rewriteOrigin h1 h2 x
    · exact qualifies_rewriteOrigin h1 h2 x
  · simp [Port.rewritten, mark_rewriteTransit, Function.comp_def]
  · simp [Port.rewritten, mark_rewriteOrigin, Function.comp_def]
  · simp [Port.rewritten, mark_rewriteOrigin, Function.comp_def]

end Sys2Proof.Machine
end

section
/-! SUPPORT. A property of the state that every primitive write keeps is kept by every operation of the blocks: the
primitive writes and the operations of the frame path, the guard, the feed admission units, dispatch, runback, trips and
averagers. `Plain` and `Calm` ask for the writes that the plant's units make in their own work, `Stable` for all. -/

namespace Sys2Proof.Machine

/-! ### The primitive writes -/

/-- What a write to a feed admission unit must leave: the settings, and the bound of the stroke queue (R95, R117). -/
def Feed.Within (f f' : Feed) : Prop :=
  (f.queue.length ≤ 8 → f'.queue.length ≤ 8) ∧ f'.ttl = f.ttl ∧ f'.timeout = f.timeout ∧ f'.settle = f.settle

/-- The settings of the runback unit (R161). -/
def Runback.settings (r : Runback) : Nat × Nat × Nat × Nat := (r.depth, r.floor, r.hold, r.releaseSelect)

/-- The settings of the dispatch unit (R155). -/
def DispatchUnit.settings (d : DispatchUnit) : Nat × Bool := (d.gateway, d.follow)

/-- The open episodes of an averager. -/
def Averager.episode (a : Averager) (p : Pollutant) : Option Nat := (a.pollutants.get p).openEpisode

/-- A property that the plant's units keep in their own work where they set no cause but ORIGIN_LOSS and trip no line: they
originate commands, rewrite waiting ones and write their records. -/
structure Plain (P : State → Prop) : Prop where
  choices : ∀ s script count, P s → P { s with script := script, freeCount := count }
  originate : ∀ s pr c, P s → P (originateCommand pr c s)
  rewrite : ∀ s n b, P s → P (s.rewrite n b).1
  feed : ∀ s l g, (s.feedOf l).Within (g (s.feedOf l)) → P s → P (s.modFeed l g)
  dispatch : ∀ s g, (∀ d, (g d).settings = DispatchUnit.settings d) → P s → P (s.modDispatch g)
  runback : ∀ s g, (∀ r, (g r).settings = Runback.settings r) → P s → P (s.modRunback g)

/-- A property that the plant's units keep in all of their own work, URGENT causes and trips included. They build no
NOTICE. -/
structure Calm (P : State → Prop) : Prop extends Plain P where
  cause : ∀ s c l d, Cause.code c ≤ 6 → P s → P (setCause c l d s)
  trip : ∀ s l g, P s → P (s.modTrip l g)

/-- A property of the state that the primitive writes of the blocks keep. Writes that a command of its own owns (tables,
settings, plant time, links, requests) are no part of it (`PartWrite`). -/
structure Stable (P : State → Prop) : Prop where
  choices : ∀ s script count, P s → P { s with script := script, freeCount := count }
  counts : ∀ s unmapped malformed withheld unguarded offers, P s →
    P { s with unmapped := unmapped, malformed := malformed, withheld := withheld, unguarded := unguarded,
               tripOffers := offers }
  owed : ∀ s tick sweep next, P s → P { s with owedTick := tick, owedSweep := sweep, sweepNext := next }
  attention : ∀ s (a : Attention), a.causes.length = s.attention.causes.length → a.station = s.attention.station →
    P s → P { s with attention := a }
  enter : ∀ s t p pr dest kind payload, s.enterOrigin p pr dest kind payload = some t → P s → P t
  originate : ∀ s pr c, P s → P (originateCommand pr c s)
  rewrite : ∀ s n b, P s → P (s.rewrite n b).1
  transit : ∀ s p f, P s → P (s.enterTransit p f).1
  errors : ∀ s p (g : PortErrors → PortErrors), P s → P (s.modPort p fun q => { q with errors := g q.errors })
  start : ∀ s p, P s → P (s.modPort p Port.start)
  free : ∀ s p, P s → P (s.modPort p fun q => { q with transmitting := none })
  capture : ∀ s g, P s → P (s.modCapture g)
  channel : ∀ s i c, P s → P (s.setChannel i c)
  actuator : ∀ s i a, P s → P (s.setActuator i a)
  feed : ∀ s l g, (s.feedOf l).Within (g (s.feedOf l)) → P s → P (s.modFeed l g)
  averager : ∀ s l g, (∀ a p, (g a).episode p = Averager.episode a p) → P s → P (s.modAverager l g)
  exceeding : ∀ s l p b v, P s → P (exceedEpisode l p b v s)
  within : ∀ s l p b, P s → P (closeEpisode l p b s)
  daily : ∀ s e, LogEntry.status e ≠ .open → P s → P (openEntry e s)
  dispatch : ∀ s g, (∀ d, (g d).settings = DispatchUnit.settings d) → P s → P (s.modDispatch g)
  runback : ∀ s g, (∀ r, (g r).settings = Runback.settings r) → P s → P (s.modRunback g)
  trip : ∀ s l g, P s → P (s.modTrip l g)
  limits : ∀ s g, (∀ t, (g t).entries = t.entries ∧ (g t).mode = LimitTable.mode t) → P s → P (s.modLimits g)

/-! ### Turns and branches -/

section
variable {P : State → Prop} {s : State}

theorem keeps_ite {c : Prop} [Decidable c] {t u : State} (ht : P t) (hu : P u) : P (if c then t else u) := by
  split
  · exact ht
  · exact hu

theorem inTurn_holds {α : Type} {xs : List α} {act : α → State → State} (ha : ∀ x s, P s → P (act x s)) (hs : P s) :
    P (inTurn xs act s) := by
  unfold inTurn
  induction xs generalizing s with
  | nil => exact hs
  | cons x rest ih => exact ih (ha x s hs)

end

namespace Plain
variable {P : State → Prop} (h : Plain P) {s : State}
include h

/-! ### Orders left open -/

theorem choose (n : Nat) (hs : P s) : P (s.choose n).2 := by
  unfold State.choose
  split
  · exact hs
  · split
    · exact h.choices s _ s.freeCount hs
    · exact h.choices s s.script _ hs

theorem inAnyOrder {acts : List (State → State)} (ha : ∀ act ∈ acts, ∀ s, P s → P (act s)) (hs : P s) :
    P (inAnyOrder acts s) :=
  inAnyOrder_invariant P (fun _ n => h.choose n) acts ha s hs

/-! ### The guard -/

theorem originateAt (e : Nat) (v : Verb) (x : Int) (pr : Priority) (hs : P s) : P (Machine.originate e v x pr s) := by
  unfold Machine.originate
  split
  · exact h.originate _ _ _ hs
  · exact hs

theorem turbineEnforce (n : Nat) (pr : Priority) (hs : P s) : P (turbineEnforce n pr s) := by
  unfold Machine.turbineEnforce
  split
  · rename_i a _
    have rewritten := h.rewrite s a.number (.upper n) hs
    dsimp only
    split
    · exact keeps_ite (h.originateAt _ _ _ _ rewritten) rewritten
    · exact rewritten
  · exact hs

theorem followAllowed (hs : P s) : P (followAllowed s) := by
  unfold Machine.followAllowed
  split
  · split
    · exact hs
    · exact h.originateAt _ _ _ _ hs
  · exact hs

/-! ### Feed admission -/

/-- A write that leaves queue and settings of a feed admission unit. -/
theorem feedSame (l : Line) (g : Feed → Feed) (hg : ∀ f, (g f).queue = f.queue ∧ (g f).ttl = f.ttl ∧
    (g f).timeout = f.timeout ∧ (g f).settle = f.settle) (hs : P s) : P (s.modFeed l g) :=
  h.feed s l g ⟨fun hq => by rwa [(hg _).1], (hg _).2⟩ hs

/-- A write that empties the stroke queue, or takes strokes from it. -/
theorem feedFewer (l : Line) (g : Feed → Feed) (hq : ∀ f, (g f).queue.length ≤ f.queue.length)
    (hg : ∀ f, (g f).ttl = f.ttl ∧ (g f).timeout = f.timeout ∧ (g f).settle = f.settle) (hs : P s) :
    P (s.modFeed l g) :=
  h.feed s l g ⟨(hq _).trans, hg _⟩ hs

theorem toSettling (l : Line) (hs : P s) : P (s.modFeed l Feed.toSettling) :=
  h.feedSame l _ (fun _ => ⟨rfl, rfl, rfl, rfl⟩) hs

theorem abortStroke (l : Line) (hs : P s) : P (abortStroke l s) := by
  unfold Machine.abortStroke
  split
  · exact h.toSettling l (h.originateAt _ _ _ _ hs)
  · exact hs

theorem setHold (l : Line) (c : HoldCause) (b : Bool) (hs : P s) :
    P (s.modFeed l fun f => { f with holds := f.holds.set c b }) :=
  h.feedSame l _ (fun _ => ⟨rfl, rfl, rfl, rfl⟩) hs

theorem addHold (l : Line) (c : HoldCause) (hs : P s) : P (addHold l c s) := by
  unfold Machine.addHold
  split
  · exact hs
  · exact h.abortStroke l (h.setHold l c true hs)

theorem release (l : Line) (hs : P s) : P (release l s) := by
  unfold Machine.release
  split
  · rename_i head rest k hq _
    refine h.feedSame l _ (fun _ => ⟨rfl, rfl, rfl, rfl⟩) (h.originateAt _ _ _ _ (h.feed s l _ ⟨fun hl => ?_, rfl, rfl, rfl⟩ hs))
    rw [hq] at hl
    exact Nat.le_of_succ_le hl
  · exact hs

theorem releaseCheck (l : Line) (hs : P s) : P (releaseCheck l s) := by
  unfold Machine.releaseCheck
  split
  · exact h.release l hs
  · exact hs

theorem removeHold (l : Line) (c : HoldCause) (hs : P s) : P (removeHold l c s) := by
  unfold Machine.removeHold
  split
  · exact h.releaseCheck l (h.setHold l c false hs)
  · exact hs

theorem evalFurnace (l : Line) (hs : P s) : P (evalFurnace l s) := by
  have held := h.addHold l .furnaceCold hs
  have cold : P (if (s.feedOf l).holds.furnaceCold then s
      else
        match ((Machine.addHold l .furnaceCold s).binding l).auxBurner with
        | some e => if 0 < ((Machine.addHold l .furnaceCold s).feedOf l).bed
            then Machine.originate e .set 1 .routine (Machine.addHold l .furnaceCold s)
            else Machine.addHold l .furnaceCold s
        | none => Machine.addHold l .furnaceCold s) := by
    split
    · exact hs
    · split
      · split
        · exact h.originateAt _ _ _ _ held
        · exact held
      · exact held
  unfold Machine.evalFurnace
  dsimp only
  split
  · exact cold
  · split
    · exact cold
    · split
      · exact h.removeHold l _ hs
      · exact hs

theorem evalNoRam (l : Line) (hs : P s) : P (evalNoRam l s) := by
  unfold Machine.evalNoRam
  split
  · exact h.removeHold l _ hs
  · exact h.addHold l _ hs

theorem ramChange (l : Line) (hs : P s) : P (ramChange l s) := h.releaseCheck l (h.evalNoRam l hs)

theorem sinkChange (l : Line) (hs : P s) : P (sinkChange l s) := by
  unfold Machine.sinkChange
  split
  · exact h.addHold l _ hs
  · exact h.releaseCheck l (h.removeHold l _ hs)

/-! ### Dispatch -/

theorem deriveSink (hs : P s) : P (deriveSink s) := by
  unfold Machine.deriveSink
  dsimp only
  split
  · exact hs
  · refine h.inAnyOrder (fun act hact t ht => ?_) (h.dispatch s _ (fun _ => rfl) hs)
    simp only [List.mem_cons, List.not_mem_nil, or_false] at hact
    rcases hact with rfl | rfl
    · exact h.sinkChange .one ht
    · exact h.sinkChange .two ht

theorem recomputeAllowed (pr : Priority) (hs : P s) : P (recomputeAllowed pr s) := by
  have follow : ∀ t : State, P t → P (if t.dispatch.follow then Machine.followAllowed t else t) := by
    intro t ht
    split
    · exact h.followAllowed ht
    · exact ht
  have computed : P (s.modDispatch fun d => { d with allowed := s.allowedNow }) := h.dispatch s _ (fun _ => rfl) hs
  unfold Machine.recomputeAllowed
  dsimp only
  split
  · exact hs
  · split
    · exact follow _ (h.turbineEnforce _ _ computed)
    · exact follow _ computed

theorem dispatchSteam (hs : P s) : P (dispatchSteam s) := h.recomputeAllowed _ (h.dispatch s _ (fun _ => rfl) hs)

theorem capPosted (cap : Option Nat) (hs : P s) : P (capPosted cap s) :=
  h.recomputeAllowed _ (h.dispatch s _ (fun _ => rfl) hs)

/-! ### Runback and the posts of a trip -/

theorem capTaken (hs : P s) : P (capTaken s) := by
  unfold Machine.capTaken
  split
  · exact hs
  · exact h.capPosted _ hs

theorem envelopeIdle (hs : P s) : P (envelopeIdle s) := h.capPosted _ (h.runback s _ (fun _ => rfl) hs)

theorem trigger (hs : P s) : P (trigger s) := by
  unfold Machine.trigger
  exact h.runback _ _ (fun _ => rfl) (h.capTaken hs)

theorem condition (c : Condition) (b : Bool) (hs : P s) : P (condition c b s) := by
  have noted : P (s.modRunback fun r => r.setCondition c b) :=
    h.runback s _ (fun _ => by cases c <;> rfl) hs
  unfold Machine.condition
  split
  · exact hs
  · dsimp only
    split
    · exact h.trigger noted
    · split
      · exact h.runback _ _ (fun _ => rfl) noted
      · exact noted

theorem tripPosts (l : Line) (tripped : Bool) : ∀ act ∈ tripPosts l tripped, ∀ s, P s → P (act s) := by
  intro act hact s hs
  simp only [Machine.tripPosts, List.mem_cons, List.not_mem_nil, or_false] at hact
  rcases hact with rfl | rfl
  · split
    · exact h.addHold l _ hs
    · exact h.removeHold l _ hs
  · exact h.capTaken (h.condition _ _ hs)

end Plain

namespace Calm
variable {P : State → Prop} (h : Calm P) {s : State}
include h

/-! ### EMISSION, trips and the scrub -/

theorem postReason (l : Line) (r : EmissionReason) (hs : P s) : P (postReason l r s) := by
  have added : P (s.modFeed l fun f => { f with reasons := f.reasons.add r }) :=
    h.feedSame l _ (fun _ => ⟨rfl, rfl, rfl, rfl⟩) hs
  unfold Machine.postReason
  dsimp only
  split
  · exact h.cause _ _ _ _ (by cases l <;> decide) (h.addHold l _ added)
  · exact added

theorem postBudget (l : Line) (hs : P s) : P (postBudget l s) := by
  unfold Machine.postBudget
  split
  · exact h.postReason l _ hs
  · exact hs

theorem recordTrip (l : Line) (c : TripCause) (hs : P s) : P (recordTrip l c s) := by
  unfold Machine.recordTrip
  split
  · exact hs
  · exact h.cause _ _ _ _ (by cases l <;> decide) (h.trip s l _ hs)

theorem addTripCause (l : Line) (c : TripCause) (hs : P s) : P (addTripCause l c s) := by
  unfold Machine.addTripCause
  split
  · exact h.inAnyOrder (h.tripPosts l true) (h.recordTrip l c hs)
  · exact h.recordTrip l c hs

theorem tripReset (l : Line) (hs : P s) : P (tripReset l s) := by
  unfold Machine.tripReset
  dsimp only
  split
  · exact h.inAnyOrder (h.tripPosts l false) (h.trip s l _ hs)
  · exact h.trip s l _ hs

theorem scrub (hs : P s) : P (scrub s) := by
  have posts (l : Line) : ∀ act ∈ s.postsIfEmpty l, ∀ s, P s → P (act s) := by
    unfold State.postsIfEmpty
    split
    · exact h.tripPosts l true
    · exact fun _ hact => absurd hact List.not_mem_nil
  unfold Machine.scrub
  split
  · exact hs
  · exact h.inAnyOrder (fun act hact => (List.mem_append.mp hact).elim (posts .one act) (posts .two act))
      (h.cause _ _ _ _ (by decide) (h.recordTrip .two _ (h.recordTrip .one _ hs)))

theorem resetScrub (hs : P s) : P (resetScrub s) := by
  unfold Machine.resetScrub
  split
  · exact h.scrub hs
  · exact hs

end Calm

theorem Stable.calm {P : State → Prop} (h : Stable P) : Calm P where
  choices := h.choices
  cause s _ _ _ _ := h.attention s _ (List.length_set ..) rfl
  originate := h.originate
  rewrite := h.rewrite
  feed := h.feed
  dispatch := h.dispatch
  runback := h.runback
  trip := h.trip

namespace Stable
variable {P : State → Prop} (h : Stable P) {s : State}
include h

/-! ### Orders left open, causes, NOTICEs, offers -/

theorem deliver {queues : List (List (State → State))} (ha : ∀ q ∈ queues, ∀ act ∈ q, ∀ s, P s → P (act s))
    (hs : P s) : P (deliver queues s) :=
  deliver_invariant P (fun _ n => h.calm.choose n) queues ha s hs

theorem modCause (c : Cause) (g : CauseRecord → CauseRecord) (hs : P s) : P (s.modCause c g) :=
  h.attention s _ (List.length_set ..) rfl hs

theorem setCause (c : Cause) (l : Option Line) (d : Nat) (hs : P s) : P (setCause c l d s) := h.modCause c _ hs

theorem originLoss (p : PortId) (hs : P s) : P (originLoss p s) := h.setCause _ _ _ hs

theorem offerNotice (c : Cause) (hs : P s) : P (s.offerNotice c).1 := by
  have marked : P (s.modCause c fun r => { r with noticed := true }) := h.modCause c _ hs
  unfold State.offerNotice
  split
  · dsimp only
    split
    · split
      · rename_i he
        exact h.enter _ _ _ _ _ _ _ he marked
      · exact marked
    · exact marked
  · exact hs

theorem noticeLoss (hs : P s) : P (noticeLoss s) := by
  have lost : P (Machine.originLoss .supervisor s) := h.originLoss _ hs
  have offered := h.offerNotice .originLoss lost
  unfold Machine.noticeLoss
  dsimp only
  split
  · split
    · exact h.originLoss _ offered
    · exact offered
  · exact lost

theorem noticeOccasion (c : Cause) (hs : P s) : P (noticeOccasion c s) := by
  have offered := h.offerNotice c hs
  unfold Machine.noticeOccasion
  dsimp only
  split
  · exact h.noticeLoss offered
  · exact offered

theorem noticesSince (before : State) (hs : P s) : P (noticesSince before s) :=
  inTurn_holds (fun c _ => h.noticeOccasion c) hs

theorem asEvent {act : State → State} (ha : ∀ s, P s → P (act s)) (hs : P s) : P (asEvent act s) :=
  h.noticesSince s (ha s hs)

theorem portError (k : PortErrorKind) (p : PortId) (hs : P s) : P (portError k p s) :=
  h.setCause _ _ _ (h.errors s p (·.add k) hs)

theorem captureOffer (o : CaptureRecord) (hs : P s) : P (captureOffer o s) := by
  unfold Machine.captureOffer
  split
  · split
    · exact h.setCause _ _ _ (h.capture s _ hs)
    · exact h.setCause _ _ _ (h.capture s _ hs)
  · exact hs

/-! ### The guard -/

theorem floorRise (e : Nat) (f : Int) (hs : P s) : P (floorRise e f s) := by
  unfold Machine.floorRise
  split
  · rename_i a _
    have rewritten := h.rewrite s a.number (.lower f) hs
    dsimp only
    split
    · split
      · exact h.calm.originateAt _ _ _ _ rewritten
      · exact rewritten
    · exact rewritten
  · exact hs

theorem reagentBandChange (l : Line) (r : Reagent) (b b' : Fin 3) (hs : P s) : P (reagentBandChange l r b b' s) := by
  refine inTurn_holds (fun i s hs => ?_) hs
  split
  · split
    · exact h.floorRise _ _ hs
    · exact hs
  · exact hs

theorem actuatorWriteBounds (entry : Nat) (before : Option Actuator) (hs : P s) :
    P (actuatorWriteBounds entry before s) := by
  have rewritten (n : Nat) (b : Bound) : P (s.rewrite n b).1 := h.rewrite s n b hs
  unfold Machine.actuatorWriteBounds
  split
  · rename_i a _
    split
    · exact keeps_ite (h.floorRise _ _ (rewritten a.number (.upper a.max))) (rewritten a.number (.upper a.max))
    · split
      · exact keeps_ite hs (rewritten a.number (.upper s.dispatch.allowed))
      · exact hs
  · exact hs

/-! ### Feed admission -/

theorem strokeArrives (l : Line) (length : Nat) (source seq : Byte) (hs : P s) : P (strokeArrives l length source seq s) := by
  unfold Machine.strokeArrives
  split
  · rename_i hq
    refine h.calm.releaseCheck l (h.feed s l _ ⟨fun _ => ?_, rfl, rfl, rfl⟩ hs)
    rw [List.length_append]
    exact hq
  · exact h.setCause _ _ _ hs

theorem feedStop (l : Line) (hs : P s) : P (feedStop l s) :=
  h.calm.abortStroke l (h.calm.feedFewer l _ (fun _ => Nat.zero_le _) (fun _ => ⟨rfl, rfl, rfl⟩) hs)

theorem strokeTimesOut (l : Line) (ram : Nat) (hs : P s) : P (strokeTimesOut l ram s) := by
  have settling := h.calm.toSettling l hs
  unfold Machine.strokeTimesOut
  dsimp only
  split
  · split
    · exact h.setCause _ _ _ (h.calm.originateAt _ _ _ _ (h.calm.ramChange l (h.actuator _ _ _ settling)))
    · exact settling
  · exact settling

theorem engineCount (l : Line) (hs : P s) : P (engineCount l s) := by
  unfold Machine.engineCount
  split
  · exact hs
  · have counted : P (s.modFeed l fun f => { f with timeoutCount := f.timeoutCount - 1 }) :=
      h.calm.feedSame l _ (fun _ => ⟨rfl, rfl, rfl, rfl⟩) hs
    dsimp only
    split
    · exact h.strokeTimesOut l _ counted
    · exact counted
  · exact h.calm.feedSame l _ (fun _ => ⟨rfl, rfl, rfl, rfl⟩) hs

theorem feedTick (l : Line) (hs : P s) : P (feedTick l s) :=
  h.calm.releaseCheck l (h.engineCount l (h.calm.feedFewer l _ (fun _ => List.length_filter_le _ _) (fun _ => ⟨rfl, rfl, rfl⟩)
    (h.calm.feedSame l _ (fun _ => ⟨rfl, rfl, rfl, rfl⟩) hs)))

theorem positionUpdate (l : Line) (e : Nat) (v : Option Int) (fresh : Bool) (hs : P s) :
    P (positionUpdate l e v fresh s) := by
  unfold Machine.positionUpdate
  split
  · split
    · exact h.calm.toSettling l hs
    · exact hs
  · exact hs

/-! ### Dispatch -/

theorem dispatchTurbine (hs : P s) : P (dispatchTurbine s) :=
  h.calm.recomputeAllowed _ (h.calm.deriveSink (h.dispatch s _ (fun _ => rfl) hs))

theorem activate (hs : P s) : P (activate s) := by
  unfold Machine.activate
  dsimp only
  split
  · exact h.dispatch s _ (fun _ => rfl) hs
  · exact hs

theorem dispatchTick (hs : P s) : P (dispatchTick s) := by
  refine h.calm.recomputeAllowed _ (h.dispatch _ _ (fun d => ?_) (h.activate hs))
  unfold DispatchUnit.moveRamp
  dsimp only
  split_ifs <;> rfl

theorem dispatchTimeSet (hs : P s) : P (dispatchTimeSet s) := h.calm.recomputeAllowed _ (h.activate hs)

theorem schedule (o : Order) (hs : P s) : P (schedule o s).1 := by
  unfold Machine.schedule
  split_ifs
  · exact hs
  · exact hs
  · exact hs
  · exact h.dispatch s (fun d => { d with orders := _ }) (fun _ => rfl) hs
  · exact hs
  · exact h.dispatch s (fun d => { d with orders := _ }) (fun _ => rfl) hs

theorem orderHandled (payload : List Byte) (hs : P s) : P (orderHandled payload s).1 := by
  unfold Machine.orderHandled
  dsimp only
  split
  · exact h.calm.recomputeAllowed _ (h.activate (h.schedule _ hs))
  · split
    · exact h.dispatch s (fun d => { d with orders := _ }) (fun _ => rfl) hs
    · exact hs
  · exact h.dispatch s (fun d => { d with orders := _ }) (fun _ => rfl) hs
  · exact hs

theorem orderAck (dest : Byte) (number : Nat) (st : AckStatus) (hs : P s) : P (orderAck dest number st s) := by
  unfold Machine.orderAck
  split
  · rename_i he
    exact h.enter _ _ _ _ _ _ _ he hs
  · exact h.originLoss _ hs

theorem handleOrder (f : Frame) (hs : P s) : P (handleOrder f s) := by
  have acked := h.orderAck f.src (u16At f.payload 0) (Machine.orderHandled f.payload s).2 (h.orderHandled f.payload hs)
  unfold Machine.handleOrder
  dsimp only
  split
  · exact h.setCause _ _ _ acked
  · exact h.setCause _ _ _ acked
  · exact acked

/-! ### Runback and the posts of a trip -/

theorem releaseStep (hs : P s) : P (releaseStep s) := by
  unfold Machine.releaseStep
  dsimp only
  split
  · exact h.calm.envelopeIdle hs
  · exact h.calm.capPosted _ (h.runback s _ (fun _ => rfl) hs)

theorem runbackTick (hs : P s) : P (runbackTick s) := by
  unfold Machine.runbackTick
  split
  · exact hs
  · split
    · refine h.runback s _ (fun r => ?_) hs
      split <;> rfl
    · exact hs
  · exact h.releaseStep hs

theorem runbackMaxLoad (hs : P s) : P (runbackMaxLoad s) := by
  unfold Machine.runbackMaxLoad
  split
  · split
    · exact h.calm.envelopeIdle hs
    · exact hs
  · exact hs

theorem drumTest (l : Line) (fromReading : Bool) (hs : P s) : P (drumTest l fromReading s) := by
  unfold Machine.drumTest
  split
  · split
    · refine h.calm.addTripCause l _ ?_
      split
      · exact h.counts s s.unmapped s.malformed s.withheld s.unguarded _ hs
      · exact hs
    · exact hs
  · exact hs

theorem tripSweep (l : Line) (hs : P s) : P (tripSweep l s) := by
  unfold Machine.tripSweep
  split
  · exact h.trip s l _ hs
  · dsimp only
    split
    · exact h.calm.addTripCause l _ (h.trip s l _ hs)
    · exact h.trip s l _ hs

theorem graceChange (l : Line) (hs : P s) : P (graceChange l s) := by
  unfold Machine.graceChange
  split
  · exact h.calm.addTripCause l _ hs
  · exact hs

theorem scrubTick (hs : P s) : P (scrubTick s) := by
  unfold Machine.scrubTick
  split
  · exact hs
  · split
    · exact h.limits s _ (fun _ => ⟨rfl, rfl⟩) hs
    · exact h.calm.scrub (h.limits s _ (fun _ => ⟨rfl, rfl⟩) hs)

/-! ### Averagers -/

/-- A write to an averager's record of a pollutant that leaves its open episode. -/
theorem modPollutant (l : Line) (p : Pollutant) (g : PollutantState → PollutantState)
    (hg : ∀ x, (g x).openEpisode = x.openEpisode) (hs : P s) : P (s.modPollutant l p g) := by
  refine h.averager s l _ (fun a p' => ?_) hs
  unfold Averager.episode
  dsimp only
  rw [PerPollutant.get_set]
  split
  · rename_i hp
    rw [hp, hg]
  · rfl

theorem setBand (l : Line) (p : Pollutant) (b : Fin 3) (hs : P s) : P (setBand l p b s) := by
  have banded : P (s.modPollutant l p fun x => { x with band := b }) := h.modPollutant l p _ (fun _ => rfl) hs
  unfold Machine.setBand
  dsimp only
  split
  · split
    · exact banded
    · exact h.reagentBandChange _ _ _ _ banded
  · exact banded

theorem sample (l : Line) (p : Pollutant) (v : Option Int) (fresh : Bool) (hs : P s) : P (sample l p v fresh s) := by
  unfold Machine.sample
  split
  · split
    · exact h.setBand l p _ (h.modPollutant l p _ (fun _ => rfl) hs)
    · exact hs
  · exact hs

theorem blockClose (l : Line) (b : Nat) (p : Pollutant) (hs : P s) : P (blockClose l b p s) :=
  h.modPollutant l p _ (fun _ => rfl) hs

theorem saturationTest (l : Line) (b : Nat) (r : Reagent) (hs : P s) : P (saturationTest l b r s) := by
  have put (n : Nat) : P (s.modAverager l fun a => { a with saturation := a.saturation.set r n }) :=
    h.averager s l _ (fun _ _ => rfl) hs
  unfold Machine.saturationTest
  dsimp only
  split
  · split
    · exact h.calm.postReason l _ (put _)
    · exact put _
  · split
    · exact hs
    · exact put _

theorem halfHourClose (l : Line) (b : Nat) (p : Pollutant) (hs : P s) : P (halfHourClose l b p s) := by
  unfold Machine.halfHourClose
  dsimp only
  generalize halfHourValue (s.pollutantOf l p).means = v
  have closed (slot : RingSlot) : P (s.modPollutant l p fun x =>
      { x with means := [none, none, none], ring := x.ring.set (ringSlotOf b) slot }) :=
    h.modPollutant l p _ (fun _ => rfl) hs
  cases v with
  | none => exact closed _
  | some v =>
    dsimp only
    split
    · exact h.exceeding _ l p b v (h.modPollutant l p _ (fun _ => rfl) (closed _))
    · exact h.within _ l p b (h.modPollutant l p _ (fun _ => rfl) (closed _))

theorem halfHourCloses (l : Line) (b : Nat) (hs : P s) : P (halfHourCloses l b s) := by
  have closed : P (Machine.inTurn Pollutant.all (Machine.halfHourClose l b) s) :=
    inTurn_holds (fun p _ => h.halfHourClose l b p) hs
  unfold Machine.halfHourCloses
  dsimp only
  split
  · exact closed
  · have counted := h.averager _ l (fun a => { a with minutes := Nat.min 65535 (a.minutes + 30) }) (fun _ _ => rfl) closed
    refine h.calm.postBudget l ?_
    split
    · exact h.calm.postReason l _ counted
    · exact counted

theorem dayClose (l : Line) (b : Nat) (p : Pollutant) (hs : P s) : P (dayClose l b p s) := by
  unfold Machine.dayClose
  dsimp only
  refine h.modPollutant l p _ (fun _ => rfl) ?_
  split
  · exact h.setCause _ _ _ (h.daily s _ (by simp) hs)
  · exact hs

theorem boundaryClose (l : Line) (hs : P s) : P (boundaryClose l s) := by
  have blocks := inTurn_holds (xs := Pollutant.all) (fun p _ => h.blockClose l (s.averagerOf l).nextBoundary p)
    (h.averager s l (fun a => { a with nextBoundary := (s.averagerOf l).nextBoundary + 600 }) (fun _ _ => rfl) hs)
  have tested := inTurn_holds (xs := Reagent.all) (fun r _ => h.saturationTest l (s.averagerOf l).nextBoundary r) blocks
  have halved (c : Prop) [Decidable c] := keeps_ite (c := c) (h.halfHourCloses l (s.averagerOf l).nextBoundary tested) tested
  unfold Machine.boundaryClose
  exact keeps_ite (inTurn_holds (fun p _ => h.dayClose l _ p) (halved _)) (halved _)

theorem averagerTick (l : Line) (hs : P s) : P (averagerTick l s) := by
  unfold Machine.averagerTick
  split
  · exact h.asEvent (fun _ => h.boundaryClose l) hs
  · exact hs

theorem averagerTimeSet (l : Line) (hs : P s) : P (averagerTimeSet l s) := by
  unfold Machine.averagerTimeSet
  split
  · exact h.averagerTick l hs
  · exact inTurn_holds (fun p _ => h.modPollutant l p _ fun _ => rfl) (h.averager s l _ (fun _ _ => rfl) hs)

theorem hhLimitChange (l : Line) (p : Pollutant) (hs : P s) : P (hhLimitChange l p s) := by
  unfold Machine.hhLimitChange
  split
  · exact h.setBand l p _ hs
  · exact hs

theorem episodeCapChange (l : Line) (hs : P s) : P (episodeCapChange l s) := by
  unfold Machine.episodeCapChange
  split
  · exact h.calm.postReason l _ hs
  · exact hs

end Stable

end Sys2Proof.Machine
end

section
/-! SUPPORT. A property that the primitive writes keep, under the channel supervisor, the clock, arrivals and the
executions of requests. -/

namespace Sys2Proof.Machine

/-! ### What updates have the jobs do (R57) -/

/-- The actions that a channel update can have a job take (R57). -/
inductive JobAction : (State → State) → Prop where
  | furnace (l : Line) : JobAction (evalFurnace l)
  | position (l : Line) (e : Nat) (v : Option Int) (fresh : Bool) : JobAction (positionUpdate l e v fresh)
  | sample (l : Line) (p : Pollutant) (v : Option Int) (fresh : Bool) : JobAction (sample l p v fresh)
  | steam : JobAction dispatchSteam
  | turbine : JobAction dispatchTurbine
  | bypass : JobAction dispatchBypass
  | drum (l : Line) : JobAction (runbackDrum l)
  | cap : JobAction capTaken
  | trip (l : Line) (fromReading : Bool) : JobAction (drumTest l fromReading)

theorem jobAction_of_feed {s : State} {l : Line} {u : Update} {act : State → State} (h : act ∈ s.feedDeliveries l u) :
    JobAction act := by
  unfold State.feedDeliveries at h
  rcases List.mem_append.mp h with hf | hp
  · split at hf
    · rw [List.mem_singleton.mp hf]
      exact .furnace l
    · cases hf
  · obtain ⟨e, -, rfl⟩ := List.mem_map.mp hp
    exact .position l e _ _

theorem jobAction_of_averager {s : State} {l : Line} {u : Update} {act : State → State}
    (h : act ∈ s.averagerDeliveries l u) : JobAction act := by
  obtain ⟨p, -, rfl⟩ := List.mem_map.mp h
  exact .sample l p _ _

theorem jobAction_of_dispatch {s : State} {u : Update} {act : State → State} (h : act ∈ s.dispatchDeliveries u) :
    JobAction act := by
  have : act = dispatchSteam ∨ act = dispatchTurbine ∨ act = dispatchBypass := by
    simp only [State.dispatchDeliveries, List.mem_append, List.mem_ite_nil_right, List.mem_singleton] at h
    tauto
  rcases this with rfl | rfl | rfl
  · exact .steam
  · exact .turbine
  · exact .bypass

theorem jobAction_of_drum {l : Line} {act : State → State} (h : act ∈ runbackDrumActions l) : JobAction act := by
  simp only [runbackDrumActions, List.mem_cons, List.not_mem_nil, or_false] at h
  rcases h with rfl | rfl
  · exact .drum l
  · exact .cap

theorem jobAction_of_runback {s : State} {u : Update} {act : State → State} (h : act ∈ s.runbackDeliveries u) :
    JobAction act := by
  simp only [State.runbackDeliveries, List.mem_append, List.mem_ite_nil_right] at h
  rcases h with ⟨-, h⟩ | ⟨-, h⟩
  · exact jobAction_of_drum h
  · exact jobAction_of_drum h

theorem jobAction_of_trip {s : State} {l : Line} {u : Update} {act : State → State} (h : act ∈ s.tripDeliveries l u) :
    JobAction act := by
  unfold State.tripDeliveries at h
  split at h
  · rw [List.mem_singleton.mp h]
    exact .trip l _
  · cases h

theorem jobAction_of_jobQueues {s : State} {us : List Update} {q : List (State → State)} {act : State → State}
    (hq : q ∈ s.jobQueues us) (hact : act ∈ q) : JobAction act := by
  simp only [State.jobQueues, List.mem_cons, List.not_mem_nil, or_false] at hq
  rcases hq with rfl | rfl | rfl | rfl | rfl | rfl | rfl | rfl <;> obtain ⟨u, -, hu⟩ := List.mem_flatMap.mp hact
  · exact jobAction_of_feed hu
  · exact jobAction_of_feed hu
  · exact jobAction_of_averager hu
  · exact jobAction_of_averager hu
  · exact jobAction_of_dispatch hu
  · exact jobAction_of_runback hu
  · exact jobAction_of_trip hu
  · exact jobAction_of_trip hu

theorem mem_whenChanged {old new : Option Nat} {acts : List (State → State)} {act : State → State}
    (h : act ∈ whenChanged old new acts) : act ∈ acts := by
  unfold whenChanged at h
  split at h
  · cases h
  · exact h

namespace Stable
variable {P : State → Prop} (h : Stable P) {s : State}
include h

theorem jobAction {act : State → State} (ha : JobAction act) (hs : P s) : P (act s) := by
  cases ha with
  | furnace l => exact h.calm.evalFurnace l hs
  | position l e v fresh => exact h.positionUpdate l e v fresh hs
  | sample l p v fresh => exact h.sample l p v fresh hs
  | steam => exact h.calm.dispatchSteam hs
  | turbine => exact h.dispatchTurbine hs
  | bypass => exact h.calm.deriveSink hs
  | drum l => exact h.calm.condition _ _ hs
  | cap => exact h.calm.capTaken hs
  | trip l fromReading => exact h.drumTest l fromReading hs

/-! ### Channels -/

theorem postUpdates (goodAt : Option Nat) (fromReading : Bool) (channels : List Nat) (hs : P s) :
    P (postUpdates goodAt fromReading channels s) :=
  h.deliver (fun _ hq _ hact _ => h.jobAction (jobAction_of_jobQueues hq hact)) hs

theorem postFrom (goodAt : Option Nat) (fromReading : Bool) (x : Nat) (hs : P s) :
    P (postFrom goodAt fromReading x s) := h.postUpdates goodAt fromReading _ hs

theorem takeReading (r : Reading) (hs : P s) : P (takeReading r s) := by
  unfold Machine.takeReading
  split
  · split
    · exact h.postFrom _ _ _ (h.channel s _ _ hs)
    · exact hs
  · exact h.counts s _ s.malformed s.withheld s.unguarded s.tripOffers hs

theorem takeSample (payload : List Byte) (hs : P s) : P (takeSample payload s) := by
  unfold Machine.takeSample
  split
  · exact inTurn_holds (fun r _ => h.asEvent fun _ => h.takeReading r) hs
  · exact h.counts s s.unmapped _ s.withheld s.unguarded s.tripOffers hs

theorem checkChannel (i : Nat) (hs : P s) : P (checkChannel i s) := by
  unfold Machine.checkChannel
  split
  · exact hs
  · dsimp only
    split
    · exact h.postFrom _ _ _ (h.setCause _ _ _ (h.channel s _ _ hs))
    · exact h.channel s _ _ hs

theorem checkChannels (first past : Nat) (hs : P s) : P (checkChannels first past s) :=
  inTurn_holds (fun i _ => h.asEvent fun _ => h.checkChannel i) hs

/-! ### Limit change events -/

theorem deliverLimit (i : LimitId) (hs : P s) : P (deliverLimit i s) := by
  unfold Machine.deliverLimit
  split
  · exact h.calm.evalFurnace _ hs
  · exact h.calm.evalFurnace _ hs
  · exact h.calm.releaseCheck _ hs
  · exact h.calm.releaseCheck _ hs
  · exact hs
  · exact hs
  · exact hs
  · exact h.episodeCapChange _ hs
  · exact h.hhLimitChange _ _ hs
  · exact hs
  · exact h.calm.postBudget _ hs
  · refine h.deliver (fun q hq act hact t => h.jobAction ?_) hs
    simp only [List.mem_cons, List.not_mem_nil, or_false] at hq
    rcases hq with rfl | rfl
    · rw [List.mem_singleton.mp hact]
      exact .steam
    · exact jobAction_of_drum hact
  · exact h.drumTest _ _ hs
  · exact h.graceChange _ hs
  · refine h.calm.inAnyOrder (fun act hact t ht => ?_) hs
    simp only [List.mem_cons, List.not_mem_nil, or_false] at hact
    rcases hact with rfl | rfl
    · exact h.calm.recomputeAllowed _ ht
    · exact h.runbackMaxLoad ht
  · exact h.calm.dispatchSteam hs
  · exact hs
  · exact hs

/-! ### Ticks and sweeps -/

theorem takeTick (u : TickUnit) (hs : P s) : P (takeTick u s) := by
  refine h.asEvent (fun t ht => ?_) hs
  cases u with
  | feed l => exact h.feedTick l ht
  | averager l => exact h.averagerTick l ht
  | dispatch => exact h.dispatchTick ht
  | runback => exact h.runbackTick ht
  | limits => exact h.scrubTick ht

theorem takeOwedTick (u : TickUnit) (hs : P s) : P (takeOwedTick u s) := by
  unfold Machine.takeOwedTick
  split
  · exact h.takeTick u (h.owed s _ s.owedSweep s.sweepNext hs)
  · exact hs

theorem settleTick (hs : P s) : P (settleTick s) := inTurn_holds (fun u _ => h.takeOwedTick u) hs

theorem takeSweep (u : SweepUnit) (hs : P s) : P (takeSweep u s) := by
  cases u with
  | channels => exact h.checkChannels _ _ (h.owed s s.owedTick s.owedSweep 0 hs)
  | trip l => exact h.asEvent (fun _ => h.tripSweep l) hs

theorem takeOwedSweep (u : SweepUnit) (hs : P s) : P (takeOwedSweep u s) := by
  unfold Machine.takeOwedSweep
  split
  · exact h.takeSweep u (h.owed s s.owedTick _ s.sweepNext hs)
  · exact hs

theorem settleSweep (hs : P s) : P (settleSweep s) := inTurn_holds (fun u _ => h.takeOwedSweep u) hs

theorem settleAll (hs : P s) : P (settleAll s) := h.settleSweep (h.settleTick hs)

omit h in
theorem unlessHeld {act : State → State} (ha : s.resetAsserted = false → P (act s)) (hs : P s) :
    P (unlessHeld act s) := by
  unfold Machine.unlessHeld
  split
  · exact hs
  · rename_i hr
    exact ha (by simpa using hr)

theorem tickBrings (u : TickUnit) (falls : State → Bool) (hs : P s) : P (tickBrings u falls s) :=
  unlessHeld (fun _ => keeps_ite (h.takeOwedTick u hs) hs) hs

theorem sweep (order : List SweepUnit) (hs : P s) : P (sweep order s) :=
  unlessHeld (fun _ => inTurn_holds (fun u _ => h.takeOwedSweep u) (h.owed _ _ _ _ (h.settleSweep hs))) hs

theorem channelLost (c : Nat) (hs : P s) : P (channelLost c s) :=
  unlessHeld (fun _ => keeps_ite (h.checkChannels _ _ (h.owed s s.owedTick s.owedSweep _ hs)) hs) hs

theorem drumGraceExpiry (l : Line) (hs : P s) : P (drumGraceExpiry l s) :=
  unlessHeld (fun _ => keeps_ite (h.takeOwedSweep _ hs) hs) hs

theorem storageFault (code : BitVec 16) (hs : P s) : P (storageFault code s) := by
  unfold Machine.storageFault
  split
  · exact h.limits s _ (fun _ => ⟨rfl, rfl⟩) hs
  · exact hs

/-! ### Arrivals -/

theorem forwardAs (p : PortId) (f : Frame) (d : Disposition) (src : Option CaptureSource) (hs : P s) :
    P (forwardAs p f d src s).after := h.transit s p f hs

theorem carry (p : PortId) (f : Frame) (hs : P s) : P (carry p f s).after := by
  unfold Machine.carry
  split
  · exact h.forwardAs _ _ _ _ hs
  · exact h.forwardAs _ _ _ _ hs

theorem applyVerdict (f : Frame) (v : Verdict) (hs : P s) : P (applyVerdict f v s).after := by
  cases v with
  | unchanged => exact h.forwardAs _ _ _ _ hs
  | rewritten w => exact h.forwardAs _ _ _ _ hs
  | absorbStroke l n => exact h.strokeArrives l n _ _ hs
  | absorbStop l => exact h.feedStop l hs
  | withhold => exact h.counts s s.unmapped s.malformed _ s.unguarded s.tripOffers hs

theorem guardFrame (f : Frame) (hs : P s) : P (guardFrame f s).after := by
  unfold Machine.guardFrame
  split
  · exact h.applyVerdict f _ hs
  · split
    · exact h.applyVerdict f _ (h.counts s s.unmapped s.malformed s.withheld _ s.tripOffers hs)
    · exact h.applyVerdict f _ hs

theorem actOn (a : Action) (p : PortId) (f : Frame) (hs : P s) : P (actOn a p f s).after := by
  unfold Machine.actOn
  split
  · exact h.carry p f hs
  · exact hs
  · split
    · exact h.forwardAs _ _ _ _ (h.takeSample _ hs)
    · exact h.carry p f hs
  · split
    · exact h.guardFrame f hs
    · exact h.forwardAs _ _ _ _ hs

theorem finishArrival (p : PortId) (bytes : List Byte) (slot : Option CaptureSource) (x : Decided) (hx : P x.after) :
    P (finishArrival p bytes slot x) := by
  have offered : P (Machine.inAnyOrder
      (arrivalOffers p bytes x.after.plantTime x.disposition (x.sources slot)) { x.after with tripOffers := 0 }) := by
    refine h.calm.inAnyOrder (fun act hact t ht => ?_)
      (h.counts _ x.after.unmapped x.after.malformed x.after.withheld x.after.unguarded 0 hx)
    obtain ⟨src, -, rfl⟩ := List.mem_map.mp hact
    exact h.captureOffer _ ht
  exact keeps_ite (h.portError _ _ offered) offered

theorem matchFrame (p : PortId) (bytes : List Byte) (f : Frame) (hs : P s) : P (matchFrame p bytes f s) := by
  unfold Machine.matchFrame
  split
  · exact h.finishArrival _ _ _ _ (h.carry p f hs)
  · exact h.finishArrival _ _ _ _ (h.actOn _ p f hs)

/-- An arrival, where a request that finds room may be queued. -/
theorem frameArrival (p : PortId) (bytes : List Byte)
    (hreq : ∀ s r, s.resetAsserted = false → s.requests.length < 4 → P s → P { s with requests := s.requests ++ [r] })
    (hs : P s) : P (frameArrival p bytes s) := by
  refine unlessHeld (fun hr => h.noticesSince s ?_) hs
  refine keeps_ite hs (keeps_ite (h.portError _ _ hs) (keeps_ite (h.portError _ _ hs) ?_))
  unfold classify
  refine keeps_ite (keeps_ite ?_ (keeps_ite ?_ (h.portError _ _ hs))) (h.matchFrame _ _ _ hs)
  · unfold requestArrives
    split
    · rename_i hl
      exact hreq s _ hr hl hs
    · exact h.portError _ _ hs
  · exact keeps_ite (h.handleOrder _ hs) (h.portError _ _ hs)

end Stable

end Sys2Proof.Machine
end

section
/-! SUPPORT. A property that the primitive writes keep, under every command: the writes that a command of its own owns, the
bodies of the requests, and the execution of a command. -/

namespace Sys2Proof.Machine

/-! ### The parts that commands own -/

/-- A part of the state that only commands of its own write, resets apart. -/
inductive Part where
  | matchTable
  | points
  | bindings
  | limits
  | mode
  | time
  | dispatch
  | runback
  | feed
  | notices
  | link (p : PortId)
deriving DecidableEq

/-- The writes of a part by the commands that own it (R22, R43, R45, R47, R58, R65, R71, R117, R155, R161, R183, R35). -/
inductive PartWrite : Part → State → State → Prop where
  | slot (s : State) (i : Nat) (m : MatchSlot) : PartWrite .matchTable s { s with matchTable := s.matchTable.set i m }
  | points (s : State) (ps : List (Nat × Nat)) : PartWrite .points s { s with points := ps }
  | plantBinding (s : State) (b : PlantBinding) : PartWrite .bindings s { s with plantBinding := b }
  | lineBinding (s : State) (l : Line) (b : LineBinding) :
      PartWrite .bindings s { s with lineBinding := s.lineBinding.set l b }
  | entry (s : State) (i : LimitId) (e : LimitEntry) : PartWrite .limits s (s.withEntry i e)
  | mode (s : State) (g : LimitTable → LimitTable) (h : ∀ t, (g t).entries = t.entries) :
      PartWrite .mode s (s.modLimits g)
  | time (s : State) (n : Nat) : PartWrite .time s { s with plantTime := n }
  | dispatch (s : State) (g : DispatchUnit → DispatchUnit) : PartWrite .dispatch s (s.modDispatch g)
  | runback (s : State) (g : Runback → Runback) : PartWrite .runback s (s.modRunback g)
  | feed (s : State) (l : Line) (g : Feed → Feed) (h : ∀ f, (g f).queue = f.queue) : PartWrite .feed s (s.modFeed l g)
  | notices (s : State) (a : Attention) (h : a.causes.length = s.attention.causes.length) :
      PartWrite .notices s { s with attention := a }
  | link (s : State) (p : PortId) (b : Bool) : PartWrite (.link p) s (s.modPort p fun q => { q with linkUp := b })

/-- The part that a command owns, resets apart. -/
def ownedPart : Instr → Option Part
  | .writeEntryMatch => some .matchTable
  | .pointInsert => some .points
  | .deleteEntryPoints => some .points
  | .writeEntryBindings => some .bindings
  | .setLimit => some .limits
  | .setOverride => some .limits
  | .clearOverride => some .limits
  | .freeze => some .mode
  | .setTime => some .time
  | .secondTick _ => some .time
  | .writeEntryDispatch => some .dispatch
  | .writeEntryRunback => some .runback
  | .writeEntryFeedSettings => some .feed
  | .writeEntryNotices => some .notices
  | .linkUp p => some (.link p)
  | .linkDown p => some (.link p)
  | _ => none

/-- A property that the writes of a part keep. -/
def KeptBy (P : State → Prop) (part : Part) : Prop := ∀ s t, PartWrite part s t → P s → P t

namespace Stable
variable {P : State → Prop} (h : Stable P) {s : State}
include h

/-! ### Form tests -/

omit h in
theorem answered (st : Status) (hs : P s) : P (answer st s).after := hs

omit h in
theorem sized {body : List Byte → State → Answer} (hb : ∀ args s, P s → P (body args s).after) (n : Nat) (r : Request)
    (hs : P s) : P (sized n body r s).after := by
  unfold Machine.sized
  split
  · exact hb _ s hs
  · exact hs

theorem confirmed {body : List Byte → State → Answer} (hb : ∀ args s, P s → P (body args s).after) (n : Nat)
    (r : Request) (hs : P s) : P (confirmed n body r s).after := by
  unfold Machine.confirmed
  split
  · exact hs
  · split
    · exact hb _ s hs
    · exact h.captureOffer _ hs

/-! ### WRITE_ENTRY and DELETE_ENTRY -/

theorem readTableBody (args : List Byte) (hs : P s) : P (readTableBody args s).after := by
  unfold Machine.readTableBody
  dsimp only
  split
  · exact hs
  · split
    · exact hs
    · exact h.choices s s.script _ hs

omit h in
theorem writeMatchBody (hw : KeptBy P .matchTable) (args : List Byte) (hs : P s) : P (writeMatchBody args s).after := by
  unfold Machine.writeMatchBody
  split
  · exact hs
  · split
    · exact hw _ _ (.slot s _ _) hs
    · exact hs

theorem pointInsertBody (hw : KeptBy P .points) (args : List Byte) (hs : P s) : P (pointInsertBody args s).after := by
  unfold Machine.pointInsertBody
  split
  · exact hs
  · split
    · exact hs
    · exact hw _ _ (.points _ _) (h.channel s _ _ hs)

theorem pointUpdateBody (args : List Byte) (hs : P s) : P (pointUpdateBody args s).after := by
  unfold Machine.pointUpdateBody
  split
  · split
    · split
      · exact hs
      · dsimp only
        split
        · exact h.postFrom _ _ _ (h.channel s _ _ hs)
        · split
          · exact h.postUpdates _ _ _ (h.channel s _ _ hs)
          · exact h.channel s _ _ hs
    · exact hs
  · exact hs

theorem deletePointBody (hw : KeptBy P .points) (args : List Byte) (hs : P s) : P (deletePointBody args s).after := by
  unfold Machine.deletePointBody
  split
  · exact hs
  · split
    · exact hs
    · exact hw _ _ (.points _ _) (h.channel s _ _ hs)

theorem ramWritten (entry : Nat) (old : Option Actuator) (new : Actuator) (hs : P s) : P (ramWritten entry old new s) := by
  unfold Machine.ramWritten
  split
  · split
    · exact hs
    · exact inTurn_holds (fun l _ hs => keeps_ite (h.calm.ramChange l hs) hs) hs
  · exact hs

theorem writeActuatorBody (args : List Byte) (hs : P s) : P (writeActuatorBody args s).after := by
  unfold Machine.writeActuatorBody
  dsimp only
  split
  · exact hs
  · split
    · exact hs
    · split_ifs
      · exact hs
      · exact hs
      · exact hs
      · exact hs
      · exact hs
      · exact h.actuatorWriteBounds _ _ (h.ramWritten _ _ _ (h.actuator s _ _ hs))

theorem deleteActuatorBody (args : List Byte) (hs : P s) : P (deleteActuatorBody args s).after := by
  unfold Machine.deleteActuatorBody
  dsimp only
  split
  · exact hs
  · split
    · exact hs
    · split
      · exact hs
      · exact h.actuator s _ _ hs

theorem lineRebound (l : Line) (old new : LineBinding) (hs : P s) : P (lineRebound l old new s) := by
  refine h.deliver (fun q hq act hact t => ?_) hs
  have one {a : State → State} (ha : act ∈ [a]) (hj : JobAction a) : P t → P (act t) :=
    List.mem_singleton.mp ha ▸ h.jobAction hj
  simp only [List.mem_cons, List.not_mem_nil, or_false] at hq
  rcases hq with rfl | rfl | rfl | rfl | rfl
  · exact one (mem_whenChanged hact) (.furnace l)
  · split at hact
    · exact List.mem_singleton.mp hact ▸ h.calm.ramChange l
    · cases hact
  · exact (List.mem_append.mp hact).elim (fun ha => one (mem_whenChanged ha) .steam)
      fun ha => one (mem_whenChanged ha) .steam
  · exact h.jobAction (jobAction_of_drum (mem_whenChanged hact))
  · exact one (mem_whenChanged hact) (.trip l false)

theorem writeLineBinding (hw : KeptBy P .bindings) (l : Line) (rec : List Byte) (hs : P s) :
    P (writeLineBinding l rec s).after := by
  have bound := hw _ _ (.lineBinding s l (LineBinding.ofRecord rec)) hs
  unfold Machine.writeLineBinding
  dsimp only
  split_ifs
  · exact hs
  · exact hs
  · exact hs
  · exact hs
  · exact h.lineRebound _ _ _ (h.calm.feedSame l _ (fun _ => ⟨rfl, rfl, rfl, rfl⟩) bound)
  · exact h.lineRebound _ _ _ bound

theorem writeBindingBody (hw : KeptBy P .bindings) (args : List Byte) (hs : P s) :
    P (writeBindingBody args s).after := by
  unfold Machine.writeBindingBody
  split
  · split
    · exact hs
    · refine h.deliver (fun q hq act hact t => ?_) (hw _ _ (.plantBinding s _) hs)
      rw [List.mem_singleton.mp hq] at hact
      rcases List.mem_append.mp hact with ha | ha
      · rw [List.mem_singleton.mp (mem_whenChanged ha)]
        exact h.jobAction .turbine
      · rw [List.mem_singleton.mp (mem_whenChanged ha)]
        exact h.jobAction .bypass
  · exact h.writeLineBinding hw _ _ hs
  · exact h.writeLineBinding hw _ _ hs
  · exact hs

theorem bindingSized (hw : KeptBy P .bindings) (r : Request) (hs : P s) : P (bindingSized r s).after := by
  unfold Machine.bindingSized
  rw [apply_ite Answer.after]
  exact keeps_ite (h.writeBindingBody hw _ hs) hs

omit h in
theorem writeFeedSettingsBody (hw : KeptBy P .feed) (args : List Byte) (hs : P s) :
    P (writeFeedSettingsBody args s).after := by
  unfold Machine.writeFeedSettingsBody
  dsimp only
  split
  · exact hs
  · split
    · exact answered _ (hw _ _ (.feed s _ _ fun _ => rfl) hs)
    · exact hs

omit h in
theorem writeRunbackBody (hw : KeptBy P .runback) (args : List Byte) (hs : P s) :
    P (writeRunbackBody args s).after := by
  unfold Machine.writeRunbackBody
  dsimp only
  iterate 6
    split
    · exact hs
  exact answered _ (hw _ _ (.runback s _) hs)

theorem writeDispatchBody (hw : KeptBy P .dispatch) (args : List Byte) (hs : P s) :
    P (writeDispatchBody args s).after := by
  unfold Machine.writeDispatchBody
  dsimp only
  split_ifs
  · exact hs
  · exact hs
  · exact answered _ (h.calm.followAllowed (hw _ _ (.dispatch s _) hs))
  · exact answered _ (hw _ _ (.dispatch s _) hs)

theorem enableOccasions (before : Attention) (hs : P s) : P (enableOccasions before s) :=
  inTurn_holds (fun c _ hs => keeps_ite (h.noticeOccasion c hs) hs) hs

omit h in
theorem withEnables_length (a : Attention) (set : Nat) : (a.withEnables set).causes.length = a.causes.length := by
  simp [Attention.withEnables]

theorem writeNoticesBody (hw : KeptBy P .notices) (args : List Byte) (hs : P s) :
    P (writeNoticesBody args s).after := by
  unfold Machine.writeNoticesBody
  dsimp only
  split_ifs
  · exact hs
  · exact hs
  · exact h.enableOccasions _ (hw _ _ (.notices s _ (withEnables_length _ _)) hs)

theorem setNoticesBody (args : List Byte) (hs : P s) : P (setNoticesBody args s).after := by
  unfold Machine.setNoticesBody
  dsimp only
  split
  · exact hs
  · exact h.enableOccasions _ (h.attention s _ (withEnables_length _ _) rfl hs)

/-! ### Limit table and plant clock -/

theorem writeLimit (hw : KeptBy P .limits) (i : LimitId) (e : LimitEntry) (hs : P s) : P (writeLimit i e s) :=
  keeps_ite (hw _ _ (.entry s i e) hs) (h.deliverLimit i (hw _ _ (.entry s i e) hs))

theorem setLimit (hw : KeptBy P .limits) (index : Nat) (v : Int) (hs : P s) : P (setLimit index v s).2 := by
  unfold Machine.setLimit
  split
  · exact hs
  · split
    · exact hs
    · split
      · exact hs
      · exact h.writeLimit hw _ _ hs

theorem setOverride (hw : KeptBy P .limits) (index : Nat) (v : Int) (hs : P s) : P (setOverride index v s).2 := by
  unfold Machine.setOverride
  split
  · exact hs
  · dsimp only
    split_ifs
    · exact hs
    · exact hs
    · exact hs
    · exact hs
    · exact h.writeLimit hw _ _ hs

theorem clearOverride (hw : KeptBy P .limits) (index : Nat) (hs : P s) : P (clearOverride index s).2 := by
  unfold Machine.clearOverride
  split
  · exact hs
  · dsimp only
    split
    · exact hs
    · split
      · exact hs
      · rw [apply_ite Prod.snd]
        exact keeps_ite hs (h.writeLimit hw _ _ hs)

omit h in
theorem freeze (hw : KeptBy P .mode) (hs : P s) : P (freeze s).2 := by
  unfold Machine.freeze
  split_ifs
  · exact hs
  · exact hs
  · dsimp only
    exact hw _ _ (.mode s _ fun _ => rfl) hs

theorem setTime (hw : KeptBy P .time) (time : Nat) (hs : P s) : P (setTime time s).2 := by
  have replaced := hw _ _ (.time (Machine.settleTick s) time) (h.settleTick hs)
  unfold Machine.setTime
  split
  · dsimp only
    refine h.calm.inAnyOrder (fun act hact t ht => ?_) replaced
    simp only [List.mem_cons, List.not_mem_nil, or_false] at hact
    rcases hact with rfl | rfl | rfl
    · exact h.averagerTimeSet .one ht
    · exact h.averagerTimeSet .two ht
    · exact h.dispatchTimeSet ht
  · exact hs

theorem secondTick (hw : KeptBy P .time) (order : List TickUnit) (hs : P s) : P (secondTick order s) := by
  have tick (u : State) (hu : P u) : P (Machine.inTurn order Machine.takeOwedTick
      { u with plantTime := satSucc 4294967295 u.plantTime, owedTick := TickUnit.all }) :=
    inTurn_holds (fun v _ => h.takeOwedTick v)
      (h.owed { u with plantTime := satSucc 4294967295 u.plantTime } TickUnit.all u.owedSweep u.sweepNext
        (hw _ _ (.time u _) hu))
  exact unlessHeld (fun _ => tick _ (h.settleTick hs)) hs

/-! ### Requests that write no table record -/

omit h in
theorem onLine {args : List Byte} {body : Line → Answer} (hb : ∀ l, P (body l).after) (hs : P s) :
    P (onLine args s body).after := by
  unfold Machine.onLine
  split
  · exact hb _
  · exact hs

omit h in
theorem onChannel {args : List Byte} {body : Nat → Channel → Answer} (hb : ∀ x c, P (body x c).after) (hs : P s) :
    P (onChannel args s body).after := by
  unfold Machine.onChannel
  dsimp only
  split
  · exact hs
  · split
    · exact hb _ _
    · exact hs

theorem changeChannel (x : Nat) (c : Channel) (hs : P s) : P (changeChannel x c s).after :=
  h.postFrom _ _ _ (h.channel s _ _ hs)

theorem setChannelServiceBody (args : List Byte) (hs : P s) : P (setChannelServiceBody args s).after := by
  refine onChannel (fun x c => ?_) hs
  split
  · exact h.changeChannel _ _ hs
  · exact h.changeChannel _ _ hs
  · exact hs

theorem rearmChannelBody (args : List Byte) (hs : P s) : P (rearmChannelBody args s).after := by
  refine onChannel (fun x c => ?_) hs
  split
  · exact h.changeChannel _ _ hs
  · exact hs

theorem enableRamBody (args : List Byte) (hs : P s) : P (enableRamBody args s).after := by
  unfold Machine.enableRamBody
  dsimp only
  split
  · exact hs
  · split
    · exact hs
    · split_ifs
      · exact hs
      · exact hs
      · exact answered _ (h.ramWritten _ _ _ (h.actuator s _ _ hs))

theorem holdFeedBody (args : List Byte) (hs : P s) : P (holdFeedBody args s).after := by
  refine onLine (fun l => ?_) hs
  split
  · exact hs
  · exact h.calm.addHold l _ hs

theorem clearEmission (l : Line) (hs : P s) : P (clearEmission l s).after := by
  unfold Machine.clearEmission
  split
  · exact hs
  · split
    · exact hs
    · exact h.calm.removeHold l _ (h.calm.feedSame l _ (fun _ => ⟨rfl, rfl, rfl, rfl⟩) hs)

theorem clearHoldBody (args : List Byte) (hs : P s) : P (clearHoldBody args s).after := by
  refine onLine (fun l => ?_) hs
  split
  · exact hs
  · split
    · exact h.calm.removeHold l _ hs
    · exact hs
  · exact h.clearEmission l hs
  · split
    · exact hs
    · exact hs

theorem tripBody (args : List Byte) (hs : P s) : P (tripBody args s).after := by
  refine onLine (fun l => ?_) hs
  split
  · exact hs
  · exact h.calm.addTripCause l _ hs

theorem tripResetBody (args : List Byte) (hs : P s) : P (tripResetBody args s).after :=
  onLine (fun l => h.calm.tripReset l hs) hs

theorem stopRunbackBody (args : List Byte) (hs : P s) : P (stopRunbackBody args s).after := by
  unfold Machine.stopRunbackBody
  split_ifs
  · exact hs
  · exact hs
  · exact h.calm.envelopeIdle hs

theorem newYearBody (args : List Byte) (hs : P s) : P (newYearBody args s).after :=
  onLine (fun l => answered _ (h.averager s l _ (fun _ _ => rfl) hs)) hs

omit h in
theorem readCaptureBody (args : List Byte) (hs : P s) : P (readCaptureBody args s).after := by
  unfold Machine.readCaptureBody
  dsimp only
  split
  · exact hs
  · split
    · exact hs
    · split
      · exact hs
      · exact hs

theorem releaseCaptureBody (args : List Byte) (hs : P s) : P (releaseCaptureBody args s).after := by
  unfold Machine.releaseCaptureBody
  dsimp only
  split
  · exact hs
  · split
    · exact hs
    · exact answered _ (h.capture s _ hs)

theorem clearAttentionBody (args : List Byte) (hs : P s) : P (clearAttentionBody args s).after := by
  unfold Machine.clearAttentionBody
  dsimp only
  split
  · exact hs
  · split
    · exact h.attention s _ (by simp) rfl hs
    · exact hs

theorem clearPortErrorsBody (args : List Byte) (hs : P s) : P (clearPortErrorsBody args s).after := by
  have clear (p : PortId) {s : State} (hs : P s) : P (s.modPort p fun q => { q with errors := ⟨0, 0, 0, 0⟩ }) :=
    h.errors s p (fun _ => ⟨0, 0, 0, 0⟩) hs
  unfold Machine.clearPortErrorsBody
  dsimp only
  split
  · exact clear .field hs
  · exact clear .supervisor hs
  · exact clear .supervisor (clear .field hs)
  · exact hs

/-! ### Transmissions and links -/

theorem transmissionStart (p : PortId) (hs : P s) : P (transmissionStart p s) :=
  unlessHeld (fun _ => h.start s p hs) hs

theorem transmissionCompletion (p : PortId) (hs : P s) : P (transmissionCompletion p s) := by
  refine unlessHeld (fun _ => keeps_ite ?_ hs) hs
  have := h.start _ p (h.free s p hs)
  unfold State.modPort at this ⊢
  rwa [PerPort.set_set, PerPort.get_set_self] at this

theorem linkDown (hw : KeptBy P (.link p)) (hs : P s) : P (linkDown p s) := by
  refine unlessHeld (fun _ => ?_) hs
  have := h.free _ p (hw _ _ (.link s p false) hs)
  unfold State.modPort at this ⊢
  rwa [PerPort.set_set, PerPort.get_set_self] at this

theorem linkUp (hw : KeptBy P (.link p)) (hs : P s) : P (linkUp p s) := by
  refine unlessHeld (fun _ => keeps_ite hs ?_) hs
  have := h.start _ p (hw _ _ (.link s p true) hs)
  unfold State.modPort at this ⊢
  rwa [PerPort.set_set, PerPort.get_set_self] at this

end Stable

/-! ### Every command -/

/-- A property that holds between commands (`false`) and, as adapted, within an execution (`true`). -/
structure Lasting (P : Bool → State → Prop) : Prop where
  stable : ∀ b, Stable (P b)
  requests : ∀ s r, s.resetAsserted = false → s.requests.length < 4 → P false s →
    P false { s with requests := s.requests ++ [r] }
  begins : ∀ s row r rest, s.executable row = some (r, rest) → P false s → P true (s.beginExecution rest)
  replies : ∀ r a, P true (Answer.after a) → P false (placeReply r a)

namespace Lasting
variable {P : Bool → State → Prop} (h : Lasting P) {s : State}
include h

theorem serve {body : Request → State → Answer} (hb : ∀ r s, P true s → P true (body r s).after) (row : Instr)
    (hs : P false s) : P false (serve row body s) := by
  unfold Machine.serve
  split
  · rename_i r rest he
    exact h.replies _ _ ((h.stable true).noticesSince _ (hb _ _ (h.begins _ _ _ _ he hs)))
  · exact hs

theorem serve_sized {body : List Byte → State → Answer} (hb : ∀ args s, P true s → P true (body args s).after)
    (row : Instr) (n : Nat) (hs : P false s) : P false (Machine.serve row (sized n body) s) :=
  h.serve (fun r _ => Stable.sized hb n r) row hs

theorem serve_confirmed {body : List Byte → State → Answer} (hb : ∀ args s, P true s → P true (body args s).after)
    (row : Instr) (n : Nat) (hs : P false s) : P false (Machine.serve row (confirmed n body) s) :=
  h.serve (fun r _ => (h.stable true).confirmed hb n r) row hs

/-- Every command but a reset keeps what the primitive writes and the writes of its own part keep. -/
theorem exec {c : Instr} (hc : isReset c = false) (hw : ∀ part, ownedPart c = some part → ∀ b, KeptBy (P b) part)
    {t : State} (hs : P false s) (hx : Machine.exec c s = .next t) : P false t := by
  have out := h.stable false
  have inner := h.stable true
  have next {u : State} (hu : P false u) (he : Machine.exec c s = .next u) : P false t := by
    rw [he] at hx
    cases hx
    exact hu
  cases c with
  | powerOn straps => cases hc
  | resetNAssert => cases hc
  | lineReset straps => cases hc
  | linkDown p => exact next (out.linkDown (hw _ rfl false) hs) rfl
  | linkUp p => exact next (out.linkUp (hw _ rfl false) hs) rfl
  | frameArrival p bytes => exact next (out.frameArrival p bytes h.requests hs) rfl
  | transmissionStart p => exact next (out.transmissionStart p hs) rfl
  | transmissionCompletion p => exact next (out.transmissionCompletion p hs) rfl
  | secondTick order => exact next (out.secondTick (hw _ rfl false) order hs) rfl
  | strokeExpiry l => exact next (out.tickBrings _ _ hs) rfl
  | strokeTimeout l => exact next (out.tickBrings _ _ hs) rfl
  | settleEnd l => exact next (out.tickBrings _ _ hs) rfl
  | orderActivation => exact next (out.tickBrings _ _ hs) rfl
  | runbackHoldExpiry => exact next (out.tickBrings _ _ hs) rfl
  | integrityScrub => exact next (out.tickBrings _ _ hs) rfl
  | storageFault code => exact next (out.storageFault code hs) rfl
  | boundaryClose l => exact next (out.tickBrings _ _ hs) rfl
  | sweep order => exact next (out.sweep order hs) rfl
  | channelLost x => exact next (out.channelLost x hs) rfl
  | drumGraceExpiry l => exact next (out.drumGraceExpiry l hs) rfl
  | unknownRequest => exact next (h.serve (fun _ _ hs => hs) _ hs) rfl
  | writeEntryReadOnly => exact next (h.serve (fun _ _ hs => hs) _ hs) rfl
  | deleteEntryRefused => exact next (h.serve (fun _ _ hs => hs) _ hs) rfl
  | readTable => exact next (h.serve_sized (fun args _ => inner.readTableBody args) _ _ hs) rfl
  | writeEntryMatch => exact next (h.serve_sized (fun args _ => Stable.writeMatchBody (hw _ rfl true) args) _ _ hs) rfl
  | pointInsert => exact next (h.serve_sized (fun args _ => inner.pointInsertBody (hw _ rfl true) args) _ _ hs) rfl
  | pointUpdate => exact next (h.serve_sized (fun args _ => inner.pointUpdateBody args) _ _ hs) rfl
  | writeEntryActuators => exact next (h.serve_sized (fun args _ => inner.writeActuatorBody args) _ _ hs) rfl
  | writeEntryBindings => exact next (h.serve (fun r _ => inner.bindingSized (hw _ rfl true) r) _ hs) rfl
  | writeEntryFeedSettings =>
    exact next (h.serve_sized (fun args _ => Stable.writeFeedSettingsBody (hw _ rfl true) args) _ _ hs) rfl
  | writeEntryRunback =>
    exact next (h.serve_sized (fun args _ => Stable.writeRunbackBody (hw _ rfl true) args) _ _ hs) rfl
  | writeEntryDispatch =>
    exact next (h.serve_sized (fun args _ => inner.writeDispatchBody (hw _ rfl true) args) _ _ hs) rfl
  | writeEntryNotices =>
    exact next (h.serve_sized (fun args _ => inner.writeNoticesBody (hw _ rfl true) args) _ _ hs) rfl
  | deleteEntryPoints =>
    exact next (h.serve_sized (fun args _ => inner.deletePointBody (hw _ rfl true) args) _ _ hs) rfl
  | deleteEntryActuators => exact next (h.serve_sized (fun args _ => inner.deleteActuatorBody args) _ _ hs) rfl
  | setLimit => exact next (h.serve_sized (fun _ _ => inner.setLimit (hw _ rfl true) _ _) _ _ hs) rfl
  | setOverride => exact next (h.serve_sized (fun _ _ => inner.setOverride (hw _ rfl true) _ _) _ _ hs) rfl
  | clearOverride => exact next (h.serve_sized (fun _ _ => inner.clearOverride (hw _ rfl true) _) _ _ hs) rfl
  | freeze => exact next (h.serve_confirmed (fun _ _ => Stable.freeze (hw _ rfl true)) _ _ hs) rfl
  | setTime => exact next (h.serve_sized (fun _ _ => inner.setTime (hw _ rfl true) _) _ _ hs) rfl
  | setChannelService => exact next (h.serve_sized (fun args _ => inner.setChannelServiceBody args) _ _ hs) rfl
  | rearmChannel => exact next (h.serve_sized (fun args _ => inner.rearmChannelBody args) _ _ hs) rfl
  | enableRam => exact next (h.serve_sized (fun args _ => inner.enableRamBody args) _ _ hs) rfl
  | holdFeed => exact next (h.serve_sized (fun args _ => inner.holdFeedBody args) _ _ hs) rfl
  | clearHold => exact next (h.serve_sized (fun args _ => inner.clearHoldBody args) _ _ hs) rfl
  | trip => exact next (h.serve_sized (fun args _ => inner.tripBody args) _ _ hs) rfl
  | tripReset => exact next (h.serve_confirmed (fun args _ => inner.tripResetBody args) _ _ hs) rfl
  | stopRunback => exact next (h.serve_sized (fun args _ => inner.stopRunbackBody args) _ _ hs) rfl
  | newYear => exact next (h.serve_confirmed (fun args _ => inner.newYearBody args) _ _ hs) rfl
  | readStatus => exact next (h.serve_sized (body := readStatusBody) (fun _ _ hs => hs) _ _ hs) rfl
  | readCapture => exact next (h.serve_sized (fun args _ => Stable.readCaptureBody args) _ _ hs) rfl
  | releaseCapture => exact next (h.serve_sized (fun args _ => inner.releaseCaptureBody args) _ _ hs) rfl
  | clearAttention => exact next (h.serve_sized (fun args _ => inner.clearAttentionBody args) _ _ hs) rfl
  | clearPortErrors => exact next (h.serve_sized (fun args _ => inner.clearPortErrorsBody args) _ _ hs) rfl
  | setNotices => exact next (h.serve_sized (fun args _ => inner.setNoticesBody args) _ _ hs) rfl
  | restart => cases hc

end Lasting

end Sys2Proof.Machine
end

section
/-! SUPPORT. The settings of the part, which only commands of their own write, resets apart. -/

namespace Sys2Proof.Machine

/-- What only commands of its own write, resets apart: tables, settings, plant time, links and station. -/
structure Settings where
  matchTable : List MatchSlot
  points : List (Nat × Nat)
  plantBinding : PlantBinding
  lineBinding : PerLine LineBinding
  entries : List LimitEntry
  mode : Mode
  plantTime : Nat
  dispatch : Nat × Bool
  runback : Nat × Nat × Nat × Nat
  feed : PerLine (Nat × Nat × Nat)
  noticeStation : Nat
  links : PerPort Bool
  ownStation : Byte
  resetAsserted : Bool

/-- The settings of a feed admission unit (R117). -/
def Feed.settings (f : Feed) : Nat × Nat × Nat := (f.ttl, f.timeout, f.settle)

def State.links (s : State) : PerPort Bool := ⟨(s.port .field).linkUp, (s.port .supervisor).linkUp⟩

def State.feedSettings (s : State) : PerLine (Nat × Nat × Nat) := ⟨(s.feedOf .one).settings, (s.feedOf .two).settings⟩

def State.settings (s : State) : Settings where
  matchTable := s.matchTable
  points := s.points
  plantBinding := s.plantBinding
  lineBinding := s.lineBinding
  entries := s.limits.entries
  mode := s.limits.mode
  plantTime := s.plantTime
  dispatch := s.dispatch.settings
  runback := s.runback.settings
  feed := s.feedSettings
  noticeStation := s.attention.station
  links := s.links
  ownStation := s.ownStation
  resetAsserted := s.resetAsserted

/-! ### Primitive writes -/

theorem links_modPort (s : State) (p : PortId) {g : Port → Port} (h : (g (s.port p)).linkUp = (s.port p).linkUp) :
    (s.modPort p g).links = s.links := by
  cases p <;> simp [State.links, State.port_modPort, h]

/-- A state that differs by its ports alone, whose links are the same, has the same settings. -/
theorem settings_of_links {s t : State} (h : t.links = s.links)
    (hr : { t.settings with links := s.links } = s.settings) : t.settings = s.settings := by
  rw [← hr, ← h]
  rfl

theorem settings_modPort (s : State) (p : PortId) {g : Port → Port} (h : (g (s.port p)).linkUp = (s.port p).linkUp) :
    (s.modPort p g).settings = s.settings := settings_of_links (links_modPort s p h) rfl

theorem Port.setOrigin_linkUp (q : Port) (pr : Priority) (ws : List Waiting) : (q.setOrigin pr ws).linkUp = q.linkUp := by
  cases pr <;> rfl

theorem Port.superseded_linkUp (q : Port) (pr : Priority) (n : Nat) : (q.superseded pr n).linkUp = q.linkUp := by
  cases pr <;> rfl

theorem Port.choice_linkUp {q q' : Port} {f : Frame} (h : q.choice = some (f, q')) : q'.linkUp = q.linkUp := by
  unfold Port.choice at h
  split at h
  · cases h
    rfl
  · split at h
    · cases h
      rfl
    · split at h
      · cases h
        rfl
      · split at h
        · cases h
          rfl
        · cases h

theorem Port.start_linkUp (q : Port) : q.start.linkUp = q.linkUp := by
  unfold Port.start
  split
  · split
    · rename_i hc
      have := Port.choice_linkUp hc
      exact this
    · rfl
  · rfl

theorem settings_setLast (s : State) (n : Nat) (v : Int) (m : Nat) : (s.setLast n v m).settings = s.settings := by
  rw [setLast_eq]
  rfl

theorem settings_enterOrigin {s t : State} {p : PortId} {pr : Priority} {dest kind : Byte} {payload : List Byte}
    (h : s.enterOrigin p pr dest kind payload = some t) : t.settings = s.settings := by
  unfold State.enterOrigin at h
  split at h
  · cases h
    exact settings_modPort s p (g := fun q => { q.setOrigin pr _ with seq := _ }) (Port.setOrigin_linkUp _ _ _)
  · cases h

theorem settings_originateCommand (pr : Priority) (c : Command) (s : State) :
    (originateCommand pr c s).settings = s.settings := by
  have entered (q : Port) (hq : q.linkUp = (s.port .field).linkUp) (a : List (Option Actuator)) (m : Nat) :
      State.settings { s with
        actuators := a, nextMark := m, ports := s.ports.set .field (q.superseded pr c.number) } = s.settings :=
    settings_modPort s .field (g := fun _ => q.superseded pr c.number) ((Port.superseded_linkUp _ _ _).trans hq)
  rcases originateCommand_outcomes pr c s with ⟨before, w, after, hq, hb, hw⟩ | ⟨hn, hr⟩ | ⟨hn, hf⟩
  · rw [originateCommand_of_waiting hq hb hw]
    exact entered _ (Port.setOrigin_linkUp _ _ _) _ s.nextMark
  · rw [originateCommand_of_room hn hr]
    refine entered _ ?_ _ _
    exact Port.setOrigin_linkUp _ pr _
  · rw [originateCommand_lost hn hf]
    rfl

theorem settings_rewrite (s : State) (n : Nat) (b : Bound) : (s.rewrite n b).1.settings = s.settings := by
  rw [rewrite_eq]
  exact settings_modPort s .field (g := fun q => q.rewritten n b) rfl

theorem settings_enterTransit (s : State) (p : PortId) (f : Frame) : (s.enterTransit p f).1.settings = s.settings := by
  have entered : State.settings { s.modPort (PortId.opposite p) fun q =>
      { q with transit := q.transit ++ [⟨s.nextMark, f⟩] } with nextMark := s.nextMark + 1 } = s.settings :=
    settings_modPort s _ (g := fun q => { q with transit := q.transit ++ [⟨s.nextMark, f⟩] }) rfl
  unfold State.enterTransit
  dsimp only
  split
  · split
    · exact (settings_setLast _ _ _ _).trans entered
    · exact entered
  · rfl

theorem settings_exceedEpisode (l : Line) (p : Pollutant) (b v : Nat) (s : State) :
    (exceedEpisode l p b v s).settings = s.settings := by
  unfold exceedEpisode
  split <;> rfl

theorem settings_closeEpisode (l : Line) (p : Pollutant) (b : Nat) (s : State) :
    (closeEpisode l p b s).settings = s.settings := by
  unfold closeEpisode
  split <;> rfl

theorem settings_modFeed (s : State) (l : Line) {g : Feed → Feed} (h : (s.feedOf l).Within (g (s.feedOf l))) :
    (s.modFeed l g).settings = s.settings := by
  obtain ⟨-, ht, ho, he⟩ := h
  have hg : (g (s.feedOf l)).settings = (s.feedOf l).settings := by simp only [Feed.settings, ht, ho, he]
  have hf : (s.modFeed l g).feedSettings = s.feedSettings := by
    cases l <;> simp [State.feedSettings, State.feedOf_modFeed, hg]
  exact show { s.settings with feed := (s.modFeed l g).feedSettings } = s.settings by rw [hf]; rfl

/-- Nothing that is read from the settings is changed by a primitive write. -/
theorem stable_settings {β : Type} (read : Settings → β) (k : β) : Stable fun s => read s.settings = k where
  choices _ _ _ hs := hs
  counts _ _ _ _ _ _ hs := hs
  owed _ _ _ _ hs := hs
  attention s a _ hst hs :=
    (congrArg read (show { s.settings with noticeStation := a.station } = s.settings by rw [hst]; rfl)).trans hs
  enter _ _ _ _ _ _ _ he hs := (congrArg read (settings_enterOrigin he)).trans hs
  originate s pr c hs := (congrArg read (settings_originateCommand pr c s)).trans hs
  rewrite s n b hs := (congrArg read (settings_rewrite s n b)).trans hs
  transit s p f hs := (congrArg read (settings_enterTransit s p f)).trans hs
  errors s p g hs := (congrArg read (settings_modPort s p rfl)).trans hs
  start s p hs := (congrArg read (settings_modPort s p (Port.start_linkUp _))).trans hs
  free s p hs := (congrArg read (settings_modPort s p rfl)).trans hs
  capture _ _ hs := hs
  channel _ _ _ hs := hs
  actuator _ _ _ hs := hs
  feed s l _ hw hs := (congrArg read (settings_modFeed s l hw)).trans hs
  averager _ _ _ _ hs := hs
  exceeding s l p b v hs := (congrArg read (settings_exceedEpisode l p b v s)).trans hs
  within s l p b hs := (congrArg read (settings_closeEpisode l p b s)).trans hs
  daily _ _ _ hs := hs
  dispatch s g hg hs :=
    (congrArg read (show { s.settings with dispatch := (g s.dispatch).settings } = s.settings by rw [hg]; rfl)).trans hs
  runback s g hg hs :=
    (congrArg read (show { s.settings with runback := (g s.runback).settings } = s.settings by rw [hg]; rfl)).trans hs
  trip _ _ _ hs := hs
  limits s g hg hs :=
    (congrArg read (show { s.settings with entries := (g s.limits).entries, mode := (g s.limits).mode } = s.settings by
      rw [(hg _).1, (hg _).2]; rfl)).trans hs

theorem lasting_settings {β : Type} (read : Settings → β) (k : β) : Lasting fun _ s => read s.settings = k where
  stable _ := stable_settings read k
  requests _ _ _ _ hs := hs
  begins _ _ _ _ _ hs := hs
  replies _ a hs := (congrArg read (settings_modPort a.after .supervisor
    (g := fun q => { q with routine := q.routine ++ _ }) rfl)).trans hs

/-- What the writes of every part but one leave in the settings, every command but a reset and the owners of that part
leaves. -/
theorem settings_kept {β : Type} {c : Instr} {s t : State} (hc : isReset c = false) (hx : exec c s = .next t)
    (read : Settings → β)
    (hr : ∀ part s t, ownedPart c = some part → PartWrite part s t → read t.settings = read s.settings) :
    read t.settings = read s.settings :=
  (lasting_settings read _).exec hc (fun part hp _ _ _ hw hs => (hr part _ _ hp hw).trans hs) rfl hx

/-! ### What a part's writes leave -/

section
variable {part : Part} {s t : State} (h : PartWrite part s t)
include h

theorem PartWrite.matchTable (hp : part ≠ .matchTable) : t.settings.matchTable = s.settings.matchTable := by
  cases h with
  | slot => exact absurd rfl hp
  | _ => rfl

theorem PartWrite.map (hp : part ≠ .points) : t.settings.points = s.settings.points := by
  cases h with
  | points => exact absurd rfl hp
  | _ => rfl

theorem PartWrite.bindings (hp : part ≠ .bindings) :
    (t.settings.plantBinding, t.settings.lineBinding) = (s.settings.plantBinding, s.settings.lineBinding) := by
  cases h with
  | plantBinding => exact absurd rfl hp
  | lineBinding => exact absurd rfl hp
  | _ => rfl

theorem PartWrite.entries (hp : part ≠ .limits) : t.settings.entries = s.settings.entries := by
  cases h with
  | entry => exact absurd rfl hp
  | mode _ g hg => exact hg _
  | _ => rfl

theorem PartWrite.limitMode (hp : part ≠ .mode) : t.settings.mode = s.settings.mode := by
  cases h with
  | mode => exact absurd rfl hp
  | _ => rfl

theorem PartWrite.plantTime (hp : part ≠ .time) : t.settings.plantTime = s.settings.plantTime := by
  cases h with
  | time => exact absurd rfl hp
  | _ => rfl

theorem PartWrite.dispatchSettings (hp : part ≠ .dispatch) : t.settings.dispatch = s.settings.dispatch := by
  cases h with
  | dispatch => exact absurd rfl hp
  | _ => rfl

theorem PartWrite.runbackSettings (hp : part ≠ .runback) : t.settings.runback = s.settings.runback := by
  cases h with
  | runback => exact absurd rfl hp
  | _ => rfl

theorem PartWrite.feedSettings (hp : part ≠ .feed) : t.settings.feed = s.settings.feed := by
  cases h with
  | feed => exact absurd rfl hp
  | _ => rfl

theorem PartWrite.noticeStation (hp : part ≠ .notices) : t.settings.noticeStation = s.settings.noticeStation := by
  cases h with
  | notices => exact absurd rfl hp
  | _ => rfl

theorem PartWrite.links {p : PortId} (hp : part ≠ .link p) : t.settings.links.get p = s.settings.links.get p := by
  cases h with
  | link _ p' b =>
    have hne : p ≠ p' := fun he => hp (he ▸ rfl)
    have hl : (s.modPort p' fun q => { q with linkUp := b }).port p = s.port p := by
      rw [State.port_modPort, if_neg hne]
    cases p <;> exact congrArg Port.linkUp hl
  | _ => rfl

theorem PartWrite.fixed : (t.settings.ownStation, t.settings.resetAsserted) =
    (s.settings.ownStation, s.settings.resetAsserted) := by
  cases h <;> rfl

end

theorem links_get (s : State) (p : PortId) : s.settings.links.get p = (s.port p).linkUp := by
  cases p <;> rfl

theorem feedSettings_get (s : State) (l : Line) : s.settings.feed.get l = (s.feedOf l).settings := by
  cases l <;> rfl

/-! ### The owners of a part -/

theorem owner_matchTable {c : Instr} (h : ownedPart c = some .matchTable) : c = .writeEntryMatch := by
  cases c <;> cases h
  rfl

theorem owner_points {c : Instr} (h : ownedPart c = some .points) : c = .pointInsert ∨ c = .deleteEntryPoints := by
  cases c <;> cases h <;> simp

theorem owner_bindings {c : Instr} (h : ownedPart c = some .bindings) : c = .writeEntryBindings := by
  cases c <;> cases h
  rfl

theorem owner_limits {c : Instr} (h : ownedPart c = some .limits) : c ∈ [Instr.setLimit, .setOverride, .clearOverride] := by
  cases c <;> cases h <;> simp

theorem owner_mode {c : Instr} (h : ownedPart c = some .mode) : c = .freeze := by
  cases c <;> cases h
  rfl

theorem owner_time {c : Instr} (h : ownedPart c = some .time) : c = .setTime ∨ ∃ order, c = .secondTick order := by
  cases c <;> cases h <;> simp

theorem owner_dispatch {c : Instr} (h : ownedPart c = some .dispatch) : c = .writeEntryDispatch := by
  cases c <;> cases h
  rfl

theorem owner_runback {c : Instr} (h : ownedPart c = some .runback) : c = .writeEntryRunback := by
  cases c <;> cases h
  rfl

theorem owner_feed {c : Instr} (h : ownedPart c = some .feed) : c = .writeEntryFeedSettings := by
  cases c <;> cases h
  rfl

theorem owner_notices {c : Instr} (h : ownedPart c = some .notices) : c = .writeEntryNotices := by
  cases c <;> cases h
  rfl

theorem owner_link {c : Instr} {p : PortId} (h : ownedPart c = some (.link p)) : c = .linkUp p ∨ c = .linkDown p := by
  cases c <;> cases h <;> simp

/-- Settles O8: the primitive writes leave the settings, and each part's writes leave the other parts. -/
theorem onlyOwnersWrite : Obligations.OnlyOwnersWrite := by
  intro c s t hc hx
  have kept {β : Type} {part : Part} (read : Settings → β) (hn : ownedPart c ≠ some part)
      (hw : ∀ part' s t, part' ≠ part → PartWrite part' s t → read t.settings = read s.settings) :
      read t.settings = read s.settings :=
    settings_kept hc hx read fun part' _ _ hp => hw part' _ _ fun he => hn (he ▸ hp)
  have fixed := settings_kept hc hx (fun x => (x.ownStation, x.resetAsserted)) fun _ _ _ _ hw => hw.fixed
  refine ⟨fun hn => ?_, fun hn hn' => ?_, fun hn => ?_, fun hn => ?_, fun hn => ?_, fun hn hn' => ?_, fun hn => ?_,
    fun hn => ?_, fun hn l => ?_, fun hn => ?_, fun p hn hn' => ?_, (Prod.mk.inj fixed).1, (Prod.mk.inj fixed).2⟩
  · exact kept Settings.matchTable (fun h => hn (owner_matchTable h)) fun _ _ _ hp hw => hw.matchTable hp
  · exact kept Settings.points (fun h => (owner_points h).elim hn hn') fun _ _ _ hp hw => hw.map hp
  · exact Prod.mk.inj (kept (fun x => (x.plantBinding, x.lineBinding)) (fun h => hn (owner_bindings h))
      fun _ _ _ hp hw => hw.bindings hp)
  · exact kept Settings.entries (fun h => hn (owner_limits h)) fun _ _ _ hp hw => hw.entries hp
  · exact kept Settings.mode (fun h => hn (owner_mode h)) fun _ _ _ hp hw => hw.limitMode hp
  · exact kept Settings.plantTime (fun h => (owner_time h).elim hn fun ⟨order, ho⟩ => hn' order ho)
      fun _ _ _ hp hw => hw.plantTime hp
  · exact Prod.mk.inj (kept Settings.dispatch (fun h => hn (owner_dispatch h)) fun _ _ _ hp hw => hw.dispatchSettings hp)
  · have := kept Settings.runback (fun h => hn (owner_runback h)) fun _ _ _ hp hw => hw.runbackSettings hp
    simpa [State.settings, Runback.settings] using this
  · have := congrArg (·.get l) (kept Settings.feed (fun h => hn (owner_feed h)) fun _ _ _ hp hw => hw.feedSettings hp)
    simpa [feedSettings_get, Feed.settings] using this
  · exact kept Settings.noticeStation (fun h => hn (owner_notices h)) fun _ _ _ hp hw => hw.noticeStation hp
  · have := kept (fun x => x.links.get p) (fun h => (owner_link h).elim hn hn') fun _ _ _ hp hw => hw.links hp
    rwa [links_get, links_get] at this

end Sys2Proof.Machine
end

section
/-! SUPPORT. Queues, tables and the exceedance log within their sizes under the primitive writes (R19, R26, R31, R32, R95,
R129, R130, R186). -/

namespace Sys2Proof.Machine

/-! ### A port's queues -/

/-- A port's queues and credit within their sizes, with room for so many ROUTINE frames (R26, R31, R32, R33). -/
structure Port.Bounded (room : Nat) (q : Port) : Prop where
  transit : q.transit.length ≤ 32
  urgent : q.urgent.length ≤ 8
  routine : q.routine.length ≤ room
  credit : q.credit ≤ 8

theorem Port.Bounded.superseded {room : Nat} {q : Port} (h : q.Bounded room) (pr : Priority) (n : Nat) :
    (q.superseded pr n).Bounded room := by
  cases pr with
  | urgent => exact ⟨h.transit, h.urgent, (List.length_filter_le _ _).trans h.routine, h.credit⟩
  | routine => exact h

/-- A port with another queue of a priority, which is as short as that priority allows. -/
theorem Port.Bounded.setOrigin {room : Nat} {q : Port} (h : q.Bounded room) {pr : Priority} {ws : List Waiting}
    (hw : ws.length ≤ match pr with | .urgent => 8 | .routine => room) : (q.setOrigin pr ws).Bounded room := by
  cases pr with
  | urgent => exact ⟨h.transit, hw, h.routine, h.credit⟩
  | routine => exact ⟨h.transit, h.urgent, hw, h.credit⟩

theorem Port.Bounded.origin {room : Nat} {q : Port} (h : q.Bounded room) (pr : Priority) :
    (q.origin pr).length ≤ match pr with | .urgent => 8 | .routine => room := by
  cases pr with
  | urgent => exact h.urgent
  | routine => exact h.routine

theorem Port.Bounded.rewritten {room : Nat} {q : Port} (h : q.Bounded room) (n : Nat) (b : Bound) :
    (q.rewritten n b).Bounded room :=
  ⟨by simpa [Port.rewritten] using h.transit, by simpa [Port.rewritten] using h.urgent,
    by simpa [Port.rewritten] using h.routine, h.credit⟩

/-- What is sent leaves its queue; a transit frame that passes a waiting ROUTINE one moves the credit up to 8 (R33). -/
theorem Port.Bounded.choice {room : Nat} {q q' : Port} {f : Frame} (h : q.Bounded room)
    (hc : q.choice = some (f, q')) : q'.Bounded room := by
  obtain ⟨ht, hu, hr, hcr⟩ := h
  unfold Port.choice at hc
  split at hc
  · rename_i hq
    cases hc
    exact ⟨ht, by rw [hq] at hu; exact Nat.le_of_succ_le hu, hr, hcr⟩
  · split at hc
    · rename_i hq _
      cases hc
      exact ⟨ht, hu, by rw [hq] at hr; exact Nat.le_of_succ_le hr, Nat.zero_le _⟩
    · rename_i hturn
      split at hc
      · rename_i hq
        cases hc
        refine ⟨by rw [hq] at ht; exact Nat.le_of_succ_le ht, hu, hr, ?_⟩
        dsimp only
        split
        · exact hcr
        · rename_i hne
          cases hroutine : q.routine with
          | nil => simp [hroutine] at hne
          | cons w rest =>
            have : q.credit ≠ 8 := fun h8 => hturn w rest hroutine (by simp [h8])
            omega
      · split at hc
        · rename_i hq
          cases hc
          exact ⟨ht, hu, by rw [hq] at hr; exact Nat.le_of_succ_le hr, Nat.zero_le _⟩
        · cases hc

theorem Port.Bounded.start {room : Nat} {q : Port} (h : q.Bounded room) : q.start.Bounded room := by
  unfold Port.start
  split
  · split
    · rename_i hc
      obtain ⟨ht, hu, hr, hcr⟩ := h.choice hc
      exact ⟨ht, hu, hr, hcr⟩
    · exact h
  · exact h

/-! ### Queues -/

/-- How many ROUTINE frames a port has room for; a reservation takes a slot at SUPERVISOR (R32). -/
def routineRoom (reserved : Bool) : PortId → Nat
  | .field => 16
  | .supervisor => if reserved then 15 else 16

/-- Every queue within its size, with a reservation held or not. -/
structure QueuesWithin (reserved : Bool) (s : State) : Prop where
  reservation : s.reservation = reserved
  ports : ∀ p, (s.port p).Bounded (routineRoom reserved p)
  requests : s.requests.length ≤ 4
  strokes : ∀ l, (s.feedOf l).queue.length ≤ 8

theorem queuesBounded_iff (s : State) : s.queuesBounded ↔ QueuesWithin false s := by
  have room (p : PortId) : routineRoom false p = 16 := by cases p <;> rfl
  constructor
  · rintro ⟨hp, hres, hreq, hq⟩
    refine ⟨hres, fun p => ?_, hreq, hq⟩
    obtain ⟨ht, hu, hr, hc⟩ := hp p
    exact ⟨ht, hu, (room p).symm ▸ hr, hc⟩
  · rintro ⟨hres, hp, hreq, hq⟩
    exact ⟨fun p => ⟨(hp p).transit, (hp p).urgent, room p ▸ (hp p).routine, (hp p).credit⟩, hres, hreq, hq⟩

theorem originCapacity_eq {reserved : Bool} {s : State} (h : s.reservation = reserved) (p : PortId) (pr : Priority) :
    s.originCapacity p pr = match pr with | .urgent => 8 | .routine => routineRoom reserved p := by
  subst h
  cases p <;> cases pr <;> rfl

/-- A change of one port that keeps its queues within their sizes. -/
theorem QueuesWithin.modPort {reserved : Bool} {s : State} (h : QueuesWithin reserved s) (p : PortId)
    {g : Port → Port} (hg : (g (s.port p)).Bounded (routineRoom reserved p)) : QueuesWithin reserved (s.modPort p g) := by
  refine ⟨h.reservation, fun p' => ?_, h.requests, h.strokes⟩
  rw [State.port_modPort]
  split
  · rename_i hp
    exact hp ▸ hg
  · exact h.ports p'

/-- A queue that has room for a frame is within its size with it. -/
theorem QueuesWithin.entered {reserved : Bool} {s : State} (h : QueuesWithin reserved s) {p : PortId} {pr : Priority}
    (hr : ((s.port p).origin pr).length < s.originCapacity p pr) (w : Waiting) :
    ((s.port p).setOrigin pr ((s.port p).origin pr ++ [w])).Bounded (routineRoom reserved p) := by
  refine (h.ports p).setOrigin ?_
  rw [originCapacity_eq h.reservation] at hr
  rw [List.length_append]
  exact hr

theorem QueuesWithin.enterOrigin {reserved : Bool} {s t : State} {p : PortId} {pr : Priority} {dest kind : Byte}
    {payload : List Byte} (he : s.enterOrigin p pr dest kind payload = some t) (h : QueuesWithin reserved s) :
    QueuesWithin reserved t := by
  unfold State.enterOrigin at he
  split at he
  · rename_i hr
    cases he
    obtain ⟨ht, hu, hro, hc⟩ := h.entered hr ⟨s.nextMark, s.originFrame p dest kind payload⟩
    have := h.modPort p (g := fun q => { q.setOrigin pr (q.origin pr ++
      [⟨s.nextMark, s.originFrame p dest kind payload⟩]) with seq := (q.seq + 1) % 256 }) ⟨ht, hu, hro, hc⟩
    exact ⟨this.reservation, this.ports, this.requests, this.strokes⟩
  · cases he

theorem QueuesWithin.originateCommand {reserved : Bool} {s : State} (h : QueuesWithin reserved s) (pr : Priority)
    (c : Command) : QueuesWithin reserved (originateCommand pr c s) := by
  have entered (q : Port) (hq : q.Bounded 16) (a : List (Option Actuator)) (m : Nat) : QueuesWithin reserved { s with
      actuators := a, nextMark := m, ports := s.ports.set .field (q.superseded pr c.number) } := by
    have := h.modPort .field (g := fun _ => q.superseded pr c.number) (hq.superseded pr c.number)
    exact ⟨this.reservation, this.ports, this.requests, this.strokes⟩
  rcases originateCommand_outcomes pr c s with ⟨before, w, after, hq, hb, hw⟩ | ⟨hn, hr⟩ | ⟨hn, hf⟩
  · rw [originateCommand_of_waiting hq hb hw]
    refine entered _ ((h.ports .field).setOrigin ?_) _ s.nextMark
    have := (h.ports .field).origin pr
    rw [hq] at this
    simpa using this
  · rw [originateCommand_of_room hn hr]
    obtain ⟨ht, hu, hro, hc⟩ := h.entered hr ⟨s.nextMark, s.originFrame .field 255 kindCommand c.bytes⟩
    refine entered _ ?_ _ _
    exact ⟨ht, hu, hro, hc⟩
  · rw [originateCommand_lost hn hf]
    exact ⟨h.reservation, h.ports, h.requests, h.strokes⟩

theorem QueuesWithin.enterTransit {reserved : Bool} {s : State} (h : QueuesWithin reserved s) (p : PortId) (f : Frame) :
    QueuesWithin reserved (s.enterTransit p f).1 := by
  have entered (hl : (s.port (PortId.opposite p)).transit.length < 32) : QueuesWithin reserved
      { s.modPort (PortId.opposite p) fun q => { q with transit := q.transit ++ [⟨s.nextMark, f⟩] } with
        nextMark := s.nextMark + 1 } := by
    obtain ⟨ht, hu, hro, hc⟩ := h.ports (PortId.opposite p)
    have := h.modPort (PortId.opposite p) (g := fun q => { q with transit := q.transit ++ [⟨s.nextMark, f⟩] })
      ⟨by rw [List.length_append]; exact hl, hu, hro, hc⟩
    exact ⟨this.reservation, this.ports, this.requests, this.strokes⟩
  unfold State.enterTransit
  dsimp only
  split
  · rename_i hl
    split
    · rw [setLast_eq]
      have := entered hl
      exact ⟨this.reservation, this.ports, this.requests, this.strokes⟩
    · exact entered hl
  · exact h

theorem stable_queues (reserved : Bool) : Stable (QueuesWithin reserved) where
  choices _ _ _ h := ⟨h.reservation, h.ports, h.requests, h.strokes⟩
  counts _ _ _ _ _ _ h := ⟨h.reservation, h.ports, h.requests, h.strokes⟩
  owed _ _ _ _ h := ⟨h.reservation, h.ports, h.requests, h.strokes⟩
  attention _ _ _ _ h := ⟨h.reservation, h.ports, h.requests, h.strokes⟩
  enter _ _ _ _ _ _ _ he h := h.enterOrigin he
  originate _ pr c h := h.originateCommand pr c
  rewrite s n b h := by
    have := h.modPort .field (g := fun q => q.rewritten n b) ((h.ports .field).rewritten n b)
    rw [rewrite_eq]
    exact ⟨this.reservation, this.ports, this.requests, this.strokes⟩
  transit _ p f h := h.enterTransit p f
  errors s p g h :=
    h.modPort p ⟨(h.ports p).transit, (h.ports p).urgent, (h.ports p).routine, (h.ports p).credit⟩
  start _ p h := h.modPort p (h.ports p).start
  free s p h :=
    h.modPort p ⟨(h.ports p).transit, (h.ports p).urgent, (h.ports p).routine, (h.ports p).credit⟩
  capture _ _ h := ⟨h.reservation, h.ports, h.requests, h.strokes⟩
  channel _ _ _ h := ⟨h.reservation, h.ports, h.requests, h.strokes⟩
  actuator _ _ _ h := ⟨h.reservation, h.ports, h.requests, h.strokes⟩
  feed s l g hg h := by
    refine ⟨h.reservation, h.ports, h.requests, fun l' => ?_⟩
    rw [State.feedOf_modFeed]
    split
    · exact hg.1 (h.strokes l)
    · exact h.strokes l'
  averager _ _ _ _ h := ⟨h.reservation, h.ports, h.requests, h.strokes⟩
  exceeding s l p b v h := by
    unfold exceedEpisode
    split
    · exact ⟨h.reservation, h.ports, h.requests, h.strokes⟩
    · exact ⟨h.reservation, h.ports, h.requests, h.strokes⟩
  within s l p b h := by
    unfold closeEpisode
    split
    · exact ⟨h.reservation, h.ports, h.requests, h.strokes⟩
    · exact h
  daily _ _ _ h := ⟨h.reservation, h.ports, h.requests, h.strokes⟩
  dispatch _ _ _ h := ⟨h.reservation, h.ports, h.requests, h.strokes⟩
  runback _ _ _ h := ⟨h.reservation, h.ports, h.requests, h.strokes⟩
  trip _ _ _ h := ⟨h.reservation, h.ports, h.requests, h.strokes⟩
  limits _ _ _ h := ⟨h.reservation, h.ports, h.requests, h.strokes⟩

/-- A reserved slot takes the REPLY (R32, R187). -/
theorem QueuesWithin.placeReply {r : Request} {a : Answer} (h : QueuesWithin true a.after) :
    QueuesWithin false (placeReply r a) := by
  obtain ⟨ht, hu, hro, hc⟩ := h.ports .supervisor
  refine ⟨rfl, fun p => ?_, h.requests, h.strokes⟩
  cases p with
  | field => exact h.ports .field
  | supervisor =>
    refine ⟨ht, hu, ?_, hc⟩
    have : ((Machine.placeReply r a).port .supervisor).routine.length = (a.after.port .supervisor).routine.length + 1 :=
      List.length_append
    rw [this]
    exact Nat.succ_le_succ hro

/-- What can execute: the head of the queue, of the row named, with a slot free for its REPLY (R186). -/
theorem executable_eq_some {s : State} {row : Instr} {r : Request} {rest : List Request}
    (h : s.executable row = some (r, rest)) : Ready row r rest s := by
  unfold State.executable at h
  split at h
  · rename_i r' rest' hreq
    split at h
    · rename_i hc
      cases h
      simp only [State.replySpace, Bool.and_eq_true, Bool.not_eq_true', decide_eq_true_eq] at hc
      exact ⟨hc.1.1, hreq, hc.1.2, hc.2⟩
    · cases h
  · cases h

theorem QueuesWithin.beginExecution {s : State} {row : Instr} {r : Request} {rest : List Request}
    (he : s.executable row = some (r, rest)) (h : QueuesWithin false s) :
    QueuesWithin true (s.beginExecution rest) := by
  obtain ⟨-, hreq, hroom, -⟩ := executable_eq_some he
  refine ⟨rfl, fun p => ?_, ?_, h.strokes⟩
  · cases p with
    | field => exact h.ports .field
    | supervisor =>
      obtain ⟨ht, hu, -, hc⟩ := h.ports .supervisor
      exact ⟨ht, hu, Nat.le_of_lt_succ hroom, hc⟩
  · have := h.requests
    rw [hreq] at this
    exact Nat.le_of_succ_le this

theorem lasting_queues : Lasting QueuesWithin where
  stable := stable_queues
  requests _ _ _ hl h := ⟨h.reservation, h.ports, by rw [List.length_append]; exact hl, h.strokes⟩
  begins _ _ _ _ he h := h.beginExecution he
  replies _ _ h := h.placeReply

theorem queues_keptBy (reserved : Bool) (part : Part) : KeptBy (QueuesWithin reserved) part := by
  intro s t hw h
  cases hw with
  | feed _ l g hg =>
    refine ⟨h.reservation, h.ports, h.requests, fun l' => ?_⟩
    rw [State.feedOf_modFeed]
    split
    · rw [hg]
      exact h.strokes l
    · exact h.strokes l'
  | link _ p b => exact h.modPort p ⟨(h.ports p).transit, (h.ports p).urgent, (h.ports p).routine, (h.ports p).credit⟩
  | _ => exact ⟨h.reservation, h.ports, h.requests, h.strokes⟩

/-! ### Tables -/

/-- Tables of the same lengths, in a state that differs by what originating a command may change. -/
theorem tablesSized_of_origins {s t : State} (ho : t.lessOrigins = s.lessOrigins)
    (ha : t.actuators.length = s.actuators.length) (hc : t.attention.causes.length = s.attention.causes.length)
    (h : s.tablesSized) : t.tablesSized := by
  obtain ⟨hm, hch, hl, hac, hat⟩ := h
  exact ⟨(congrArg (fun u => u.matchTable.length) ho).trans hm, (congrArg (fun u => u.channels.length) ho).trans hch,
    (congrArg (fun u => u.limits.entries.length) ho).trans hl, ha.trans hac, hc.trans hat⟩

theorem SameActuators.length_eq {s t : State} (h : SameActuators s t) : t.actuators.length = s.actuators.length := by
  have := congrArg List.length (sameActuators_iff.mp h)
  rwa [List.length_map, List.length_map] at this

theorem causes_originateCommand (pr : Priority) (c : Command) (s : State) :
    (originateCommand pr c s).attention.causes.length = s.attention.causes.length := by
  rcases originateCommand_outcomes pr c s with ⟨before, w, after, hq, hb, hw⟩ | ⟨hn, hr⟩ | ⟨hn, hf⟩
  · rw [originateCommand_of_waiting hq hb hw]
  · rw [originateCommand_of_room hn hr]
  · rw [originateCommand_lost hn hf]
    exact List.length_set ..

theorem sameActuators_enterTransit (s : State) (p : PortId) (f : Frame) : SameActuators s (s.enterTransit p f).1 := by
  unfold State.enterTransit
  dsimp only
  split
  · split
    · exact sameActuators_setLast _ _ _ _
    · rfl
  · rfl

theorem attention_enterTransit (s : State) (p : PortId) (f : Frame) :
    (s.enterTransit p f).1.attention = s.attention := by
  unfold State.enterTransit
  dsimp only
  split
  · split
    · rw [setLast_eq]
      rfl
    · rfl
  · rfl

theorem stable_tables : Stable State.tablesSized where
  choices _ _ _ h := h
  counts _ _ _ _ _ _ h := h
  owed _ _ _ _ h := h
  attention _ _ hl _ h := ⟨h.1, h.2.1, h.2.2.1, h.2.2.2.1, hl.trans h.2.2.2.2⟩
  enter s t _ _ _ _ _ he h := by
    unfold State.enterOrigin at he
    split at he
    · cases he
      exact h
    · cases he
  originate s pr c h := tablesSized_of_origins (lessOrigins_originateCommand pr c s)
    (sameActuators_originateCommand pr c s).length_eq (causes_originateCommand pr c s) h
  rewrite s n b h := tablesSized_of_origins (lessOrigins_rewrite s n b) (sameActuators_rewrite s n b).length_eq
    (congrArg (fun t => t.attention.causes.length) (rewrite_eq s n b)) h
  transit s p f h := tablesSized_of_origins (lessOrigins_forwardAs p f .forwarded none s) (sameActuators_enterTransit s p f).length_eq
    (congrArg (fun a => a.causes.length) (attention_enterTransit s p f)) h
  errors _ _ _ h := h
  start _ _ h := h
  free _ _ h := h
  capture _ _ h := h
  channel _ _ _ h := ⟨h.1, (List.length_set ..).trans h.2.1, h.2.2⟩
  actuator _ _ _ h := ⟨h.1, h.2.1, h.2.2.1, (List.length_set ..).trans h.2.2.2.1, h.2.2.2.2⟩
  feed _ _ _ _ h := h
  averager _ _ _ _ h := h
  exceeding s l p b v h := by
    unfold exceedEpisode
    split
    · exact h
    · exact ⟨h.1, h.2.1, h.2.2.1, h.2.2.2.1, (List.length_set ..).trans h.2.2.2.2⟩
  within s l p b h := by
    unfold closeEpisode
    split <;> exact h
  daily _ _ _ h := h
  dispatch _ _ _ h := h
  runback _ _ _ h := h
  trip _ _ _ h := h
  limits s g hg h := ⟨h.1, h.2.1, (congrArg List.length (hg _).1).trans h.2.2.1, h.2.2.2⟩

theorem lasting_tables : Lasting fun _ => State.tablesSized where
  stable _ := stable_tables
  requests _ _ _ _ h := h
  begins _ _ _ _ _ h := h
  replies _ _ h := h

theorem tables_keptBy (part : Part) : KeptBy State.tablesSized part := by
  intro s t hw h
  obtain ⟨hm, hch, hl, hac, hat⟩ := h
  cases hw with
  | slot => exact ⟨(List.length_set ..).trans hm, hch, hl, hac, hat⟩
  | entry => exact ⟨hm, hch, (List.length_set ..).trans hl, hac, hat⟩
  | mode _ g hg => exact ⟨hm, hch, (congrArg List.length (hg _)).trans hl, hac, hat⟩
  | notices _ a ha => exact ⟨hm, hch, hl, hac, ha.trans hat⟩
  | _ => exact ⟨hm, hch, hl, hac, hat⟩

end Sys2Proof.Machine
end

section
/-! SUPPORT. The exceedance log within its size (R129, R130, R139). -/

namespace Sys2Proof.Machine

/-- The log's bounds but for the one while RESET_N is held: at most 32 entries, its OPEN ones open episodes (R129, R130). -/
structure LogSound (s : State) : Prop where
  size : s.log.length ≤ 32
  kinds : ∀ e ∈ s.log, e.status = .open → e.kind = .halfHour
  episodes : ∀ l p, (s.log.countP fun e => e.isOpenEpisode l p) ≤ if (s.pollutantOf l p).openEpisode.isSome then 1 else 0

theorem logBounded_iff (s : State) :
    s.logBounded ↔ LogSound s ∧ (s.resetAsserted = true → ∀ e ∈ s.log, e.status ≠ .open) := by
  simp only [State.logBounded, ← List.countP_eq_length_filter]
  constructor
  · rintro ⟨hs, hk, he, hr⟩
    exact ⟨⟨hs, hk, he⟩, hr⟩
  · rintro ⟨⟨hs, hk, he⟩, hr⟩
    exact ⟨hs, hk, he, hr⟩

theorem isOpenEpisode_iff {e : LogEntry} {l : Line} {p : Pollutant} :
    e.isOpenEpisode l p = true ↔ e.status = .open ∧ e.kind = .halfHour ∧ e.line = l ∧ e.pollutant = p := by
  simp [LogEntry.isOpenEpisode, and_assoc]

/-- The lines with their pollutants, each of which has one averager record. -/
def allPairs : List (Line × Pollutant) := [Line.one, .two] ×ˢ Pollutant.all

theorem mem_allPairs (k : Line × Pollutant) : k ∈ allPairs := by
  obtain ⟨l, p⟩ := k
  cases l <;> cases p <;> decide

/-- A log of OPEN entries alone holds at most one for each line and pollutant. -/
theorem LogSound.length_of_open {s : State} (h : LogSound s) (ho : ∀ e ∈ s.log, e.status = .open) :
    s.log.length ≤ 12 := by
  have hnodup : (s.log.map fun e => (e.line, e.pollutant)).Nodup := by
    refine List.nodup_iff_count_le_one.mpr fun k => ?_
    have hcount : (s.log.map fun e => (e.line, e.pollutant)).count k =
        s.log.countP fun e => e.isOpenEpisode k.1 k.2 := by
      rw [List.count, List.countP_map]
      refine List.countP_congr fun e he => ?_
      rw [isOpenEpisode_iff]
      simp [ho e he, h.kinds e he (ho e he), Prod.ext_iff]
    rw [hcount]
    exact (h.episodes k.1 k.2).trans (by split <;> decide)
  have hsub := (List.subperm_of_subset hnodup fun k _ => mem_allPairs k).length_le
  rwa [List.length_map] at hsub

/-- The log has room for an entry once its room is made (R129). -/
theorem LogSound.length_logRoom {s : State} (h : LogSound s) : (logRoom s.log).length < 32 := by
  unfold logRoom
  split
  · assumption
  · rename_i hfull
    by_cases ho : ∀ e ∈ s.log, e.status = .open
    · exact absurd (h.length_of_open ho) (by omega)
    · push Not at ho
      obtain ⟨e, he, hne⟩ := ho
      rw [List.length_eraseP_of_mem he (by simpa using hne)]
      have := h.size
      omega

theorem logRoom_sublist (log : List LogEntry) : (logRoom log).Sublist log := by
  unfold logRoom
  split
  · exact List.Sublist.refl _
  · exact List.eraseP_sublist

/-- A log of the same length whose OPEN entries are OPEN entries of the old one, for the same episodes. -/
theorem LogSound.of_map {s t : State} (h : LogSound s) {f : LogEntry → LogEntry} (hl : t.log = s.log.map f)
    (hk : ∀ e, (f e).status = .open → e.status = .open ∧ (f e).kind = e.kind)
    (he : ∀ l p, (t.log.countP fun e => e.isOpenEpisode l p) ≤
      if (t.pollutantOf l p).openEpisode.isSome then 1 else 0) : LogSound t where
  size := by
    rw [hl, List.length_map]
    exact h.size
  kinds e hm ho := by
    rw [hl] at hm
    obtain ⟨e', he', rfl⟩ := List.mem_map.mp hm
    obtain ⟨hs, hkind⟩ := hk e' ho
    exact hkind.trans (h.kinds e' he' hs)
  episodes := he

theorem countP_map_le {f : LogEntry → LogEntry} {log : List LogEntry} {l : Line} {p : Pollutant}
    (h : ∀ e, (f e).isOpenEpisode l p = true → e.isOpenEpisode l p = true) :
    ((log.map f).countP fun e => e.isOpenEpisode l p) ≤ log.countP fun e => e.isOpenEpisode l p := by
  rw [List.countP_map]
  exact List.countP_mono_left fun e _ => h e

/-- An entry opened, OPEN where its line and pollutant had no episode and now have one, else not. -/
theorem LogSound.opened {s t : State} (h : LogSound s) {e : LogEntry} (hl : t.log = logRoom s.log ++ [e])
    (hk : e.status = .open → e.kind = .halfHour)
    (hp : ∀ l p, (s.log.countP fun e => e.isOpenEpisode l p) + (if e.isOpenEpisode l p then 1 else 0) ≤
      if (t.pollutantOf l p).openEpisode.isSome then 1 else 0) : LogSound t where
  size := by
    rw [hl, List.length_append]
    exact h.length_logRoom
  kinds e' hm ho := by
    rw [hl] at hm
    rcases List.mem_append.mp hm with hm | hm
    · exact h.kinds e' ((logRoom_sublist _).subset hm) ho
    · rw [List.mem_singleton.mp hm] at ho ⊢
      exact hk ho
  episodes l p := by
    rw [hl, List.countP_append, List.countP_singleton]
    exact (Nat.add_le_add_right (logRoom_sublist s.log).countP_le _).trans (hp l p)

theorem State.pollutantOf_modPollutant (s : State) (l l' : Line) (p p' : Pollutant) (f : PollutantState → PollutantState) :
    (s.modPollutant l p f).pollutantOf l' p' = if l' = l ∧ p' = p then f (s.pollutantOf l p) else s.pollutantOf l' p' := by
  have hl : (s.modPollutant l p f).averager.get l' = if l' = l then { s.averagerOf l with
      pollutants := (s.averagerOf l).pollutants.set p (f (s.pollutantOf l p)) } else s.averagerOf l' :=
    State.averagerOf_modAverager ..
  unfold State.pollutantOf
  rw [hl]
  by_cases h : l' = l
  · subst h
    rw [if_pos rfl]
    dsimp only
    rw [PerPollutant.get_set]
    simp [State.averagerOf, State.pollutantOf]
  · simp [h, State.averagerOf]

theorem LogSound.exceedEpisode {s : State} (h : LogSound s) (l : Line) (p : Pollutant) (b v : Nat) :
    LogSound (exceedEpisode l p b v s) := by
  unfold Machine.exceedEpisode
  split
  · refine h.of_map rfl (fun e => ?_) fun l' p' => (countP_map_le fun e => ?_).trans (h.episodes l' p')
    · split
      · exact fun ho => ⟨ho, rfl⟩
      · exact fun ho => ⟨ho, rfl⟩
    · split
      · exact id
      · exact id
  · rename_i hnone
    refine h.opened rfl (fun _ => rfl) fun l' p' => ?_
    have := h.episodes l' p'
    refine le_of_le_of_eq ?_ (congrArg (fun x => if x.openEpisode.isSome then 1 else 0)
      (State.pollutantOf_modPollutant s l l' p p' fun x => { x with openEpisode := some s.nextEntry })).symm
    by_cases hk : l' = l ∧ p' = p
    · obtain ⟨rfl, rfl⟩ := hk
      rw [hnone] at this
      simpa [isOpenEpisode_iff] using this
    · have hne : ¬ (l = l' ∧ p = p') := fun h => hk ⟨h.1.symm, h.2.symm⟩
      simpa [isOpenEpisode_iff, hk, hne] using this

theorem LogSound.closeEpisode {s : State} (h : LogSound s) (l : Line) (p : Pollutant) (b : Nat) :
    LogSound (closeEpisode l p b s) := by
  unfold Machine.closeEpisode
  split
  · refine h.of_map rfl (fun e => ?_) fun l' p' => ?_
    · split
      · exact fun ho => nomatch ho
      · exact fun ho => ⟨ho, rfl⟩
    · refine le_of_le_of_eq ?_ (congrArg (fun x => if x.openEpisode.isSome then 1 else 0)
        (State.pollutantOf_modPollutant s l l' p p' fun x => { x with openEpisode := none })).symm
      by_cases hk : l' = l ∧ p' = p
      · obtain ⟨rfl, rfl⟩ := hk
        refine (Nat.le_of_eq (List.countP_eq_zero.mpr fun e he => ?_)).trans (Nat.zero_le _)
        obtain ⟨e', -, rfl⟩ := List.mem_map.mp he
        split
        · exact fun ho => nomatch (isOpenEpisode_iff.mp ho).1
        · assumption
      · rw [if_neg hk]
        refine (countP_map_le fun e => ?_).trans (h.episodes l' p')
        split
        · exact fun ho => nomatch (isOpenEpisode_iff.mp ho).1
        · exact id
  · exact h

/-- The bounds speak of the log and the averagers alone. -/
theorem LogSound.of_same {s t : State} (h : LogSound s) (hl : t.log = s.log) (ha : t.averager = s.averager) :
    LogSound t where
  size := hl ▸ h.size
  kinds := hl ▸ h.kinds
  episodes l p := by
    unfold State.pollutantOf
    rw [hl, ha]
    exact h.episodes l p

theorem LogSound.of_origins {s t : State} (h : LogSound s) (ho : t.lessOrigins = s.lessOrigins) : LogSound t :=
  h.of_same (congrArg (fun u => u.log) ho) (congrArg (fun u => u.averager) ho)

theorem stable_log : Stable LogSound where
  choices _ _ _ h := h.of_same rfl rfl
  counts _ _ _ _ _ _ h := h.of_same rfl rfl
  owed _ _ _ _ h := h.of_same rfl rfl
  attention _ _ _ _ h := h.of_same rfl rfl
  enter _ _ _ _ _ _ _ he h := h.of_origins (lessOrigins_of_notices (lessNotices_enterOrigin he))
  originate s pr c h := h.of_origins (lessOrigins_originateCommand pr c s)
  rewrite s n b h := h.of_origins (lessOrigins_rewrite s n b)
  transit s p f h := h.of_origins (lessOrigins_forwardAs p f .forwarded none s)
  errors _ _ _ h := h.of_same rfl rfl
  start _ _ h := h.of_same rfl rfl
  free _ _ h := h.of_same rfl rfl
  capture _ _ h := h.of_same rfl rfl
  channel _ _ _ h := h.of_same rfl rfl
  actuator _ _ _ h := h.of_same rfl rfl
  feed _ _ _ _ h := h.of_same rfl rfl
  averager s l g hg h := by
    refine ⟨h.size, h.kinds, fun l' p => ?_⟩
    have : ((s.modAverager l g).pollutantOf l' p).openEpisode = (s.pollutantOf l' p).openEpisode := by
      have ha := congrArg (fun a => Averager.episode a p) (State.averagerOf_modAverager (s := s) l l' g)
      refine ha.trans ?_
      split
      · rename_i hl
        rw [hg, hl]
        rfl
      · rfl
    rw [this]
    exact h.episodes l' p
  exceeding _ l p b v h := h.exceedEpisode l p b v
  within _ l p b h := h.closeEpisode l p b
  daily s e he h := by
    refine h.opened rfl (fun ho => absurd ho he) fun l p => ?_
    have : LogEntry.isOpenEpisode { e with number := s.nextEntry } l p = false :=
      Bool.eq_false_iff.mpr fun ho => he (isOpenEpisode_iff.mp ho).1
    rw [this]
    exact h.episodes l p
  dispatch _ _ _ h := h.of_same rfl rfl
  runback _ _ _ h := h.of_same rfl rfl
  trip _ _ _ h := h.of_same rfl rfl
  limits _ _ _ h := h.of_same rfl rfl

theorem lasting_log : Lasting fun _ => LogSound where
  stable _ := stable_log
  requests _ _ _ _ h := h.of_same rfl rfl
  begins _ _ _ _ _ h := h.of_same rfl rfl
  replies _ _ h := h.of_same rfl rfl

theorem log_keptBy (part : Part) : KeptBy LogSound part := by
  intro s t hw h
  cases hw with
  | _ => exact h.of_same rfl rfl

end Sys2Proof.Machine
end

section
/-! SUPPORT. What a SOFT reset posts and the NOTICEs it builds (R184): its causes are URGENT ones. -/

namespace Sys2Proof.Machine

/-! ### The NOTICEs of URGENT causes -/

/-- The causes whose NOTICEs are URGENT. -/
def urgentCauses : List Cause :=
  [.tripOne, .tripTwo, .limitFault, .feedHoldEmissionOne, .feedHoldEmissionTwo, .originLoss]

theorem mem_urgentCauses {c : Cause} : c ∈ urgentCauses ↔ c.code ≤ 6 := by
  cases c <;> decide

theorem priority_of_urgent {c : Cause} (h : c.code ≤ 6) : c.priority = .urgent := if_pos h

/-- The ROUTINE frames that wait at SUPERVISOR. -/
def State.replies (s : State) : List Waiting := (s.port .supervisor).routine

theorem replies_offerNotice {c : Cause} (h : c.code ≤ 6) (s : State) : (s.offerNotice c).1.replies = s.replies := by
  rcases s.offerNotice_cases c with ⟨-, ho⟩ | ⟨e, -, ho⟩ | ho | ho <;> rw [ho]
  · unfold State.withNotice
    rw [priority_of_urgent h]
    rfl
  · rfl
  · rfl

theorem replies_noticeOccasion {c : Cause} (h : c.code ≤ 6) (s : State) : (noticeOccasion c s).replies = s.replies := by
  have offered := replies_offerNotice h s
  unfold noticeOccasion noticeLoss
  dsimp only
  split
  · split
    · split
      · exact (replies_offerNotice (c := .originLoss) (by decide) (originLoss .supervisor _)).trans offered
      · exact (replies_offerNotice (c := .originLoss) (by decide) (originLoss .supervisor _)).trans offered
    · exact offered
  · exact offered

/-- Occasions for URGENT causes add URGENT NOTICEs alone. -/
theorem noticed_inTurn {causes : List Cause} (h : ∀ c ∈ causes, c ∈ urgentCauses) (s : State) :
    (∃ n, Noticed n urgentCauses s (inTurn causes noticeOccasion s)) ∧
      (inTurn causes noticeOccasion s).replies = s.replies := by
  induction causes generalizing s with
  | nil => exact ⟨⟨0, .refl 0 _ s⟩, rfl⟩
  | cons c rest ih =>
    obtain ⟨hc, hrest⟩ := List.forall_mem_cons.mp h
    obtain ⟨⟨n, hn⟩, hr⟩ := ih hrest (noticeOccasion c s)
    have first : Noticed 2 urgentCauses s (noticeOccasion c s) :=
      (noticed_noticeOccasion c s).mono le_rfl (by simpa using ⟨hc, mem_urgentCauses.mpr (by decide)⟩)
    exact ⟨⟨2 + n, first.trans hn⟩, hr.trans (replies_noticeOccasion (mem_urgentCauses.mp hc) s)⟩

/-- An event that sets no ROUTINE cause builds URGENT NOTICEs alone. -/
theorem noticed_noticesSince {b s : State} (h : ∀ c, 6 < c.code → (s.cause c).status = true → (b.cause c).status = true) :
    (∃ n, Noticed n urgentCauses s (noticesSince b s)) ∧ (noticesSince b s).replies = s.replies := by
  refine noticed_inTurn (fun c hc => mem_urgentCauses.mpr (Nat.not_lt.mp fun hlt => ?_)) s
  have hset := (List.mem_filter.mp hc).2
  rw [Bool.and_eq_true, Bool.not_eq_true'] at hset
  exact absurd (h c hlt hset.2) (by simp [hset.1])

/-! ### The parts of a SOFT reset -/

/-- The trips with RESTART and the scrub, from every block at SOFT (R172, R77). -/
def restartScrubbed (s : State) : State :=
  resetScrub (setCause .tripTwo (some .two) (s.tripOf .two).causes.byte
    (setCause .tripOne (some .one) (s.tripOf .one).causes.byte s))

/-- The jobs' re-evaluations and the runback unit's two triggers (R62, R119, R158, R173). -/
def restartEvaluated (s : State) : State :=
  let s := inAnyOrder [dispatchRestarted, evalFurnace .one, evalFurnace .two] s
  let s := evalSinkAndRams .two (evalSinkAndRams .one s)
  capTaken (condition (.lineTrip .two) true (condition (.lineTrip .one) true s))

/-- What a SOFT reset posts and originates. -/
def restartPosts (s : State) : State :=
  postBudget .two (postBudget .one (restartEvaluated (restartScrubbed s)))

theorem softReset_eq (s : State) :
    softReset s = noticesSince (softBase (settleAll s)) (restartPosts (softBase (settleAll s))) := rfl

theorem Plain.evalSinkAndRams {P : State → Prop} (h : Plain P) (l : Line) {s : State} (hs : P s) :
    P (evalSinkAndRams l s) := by
  unfold Machine.evalSinkAndRams
  exact h.evalNoRam l (keeps_ite (h.addHold l _ hs) hs)

theorem Plain.dispatchRestarted {P : State → Prop} (h : Plain P) {s : State} (hs : P s) : P (dispatchRestarted s) :=
  h.recomputeAllowed _ (h.deriveSink (h.dispatch s _ (fun _ => rfl) hs))

theorem Plain.restartEvaluated {P : State → Prop} (h : Plain P) {s : State} (hs : P s) : P (restartEvaluated s) := by
  have jobs : P (Machine.inAnyOrder [Machine.dispatchRestarted, Machine.evalFurnace .one, Machine.evalFurnace .two] s) :=
    h.inAnyOrder (fun act hact t ht => by
      simp only [List.mem_cons, List.not_mem_nil, or_false] at hact
      rcases hact with rfl | rfl | rfl
      · exact h.dispatchRestarted ht
      · exact h.evalFurnace .one ht
      · exact h.evalFurnace .two ht) hs
  exact h.capTaken (h.condition _ _ (h.condition _ _ (h.evalSinkAndRams .two (h.evalSinkAndRams .one jobs))))

theorem Calm.restartScrubbed {P : State → Prop} (h : Calm P) {s : State} (hs : P s) : P (restartScrubbed s) :=
  h.resetScrub (h.cause _ .tripTwo (some .two) (s.tripOf .two).causes.byte (by decide)
    (h.cause s .tripOne (some .one) (s.tripOf .one).causes.byte (by decide) hs))

theorem Calm.restartPosts {P : State → Prop} (h : Calm P) {s : State} (hs : P s) : P (restartPosts s) :=
  h.postBudget .two (h.postBudget .one (h.restartEvaluated (h.restartScrubbed hs)))

/-! ### What the posts leave at SUPERVISOR and in the attention unit -/

/-- SUPERVISOR's port, the station, the enables and the ROUTINE causes are those of another state. -/
structure UrgentOnly (b s : State) : Prop where
  supervisor : s.port .supervisor = b.port .supervisor
  station : s.attention.station = b.attention.station
  enable : ∀ c, (s.cause c).enable = (b.cause c).enable
  routine : ∀ c, 6 < c.code → s.cause c = b.cause c

theorem UrgentOnly.setCause {b s : State} (h : UrgentOnly b s) {c : Cause} (hc : c.code ≤ 6) (l : Option Line) (d : Nat) :
    UrgentOnly b (setCause c l d s) where
  supervisor := h.supervisor
  station := h.station
  enable c' := (setCause_enable c c' l d s).trans (h.enable c')
  routine c' hc' := (s.cause_modCause_ne _ (fun he => by subst he; omega)).trans (h.routine c' hc')

/-- A change of the FIELD port. -/
theorem UrgentOnly.setField {b s : State} (h : UrgentOnly b s) (q : Port) (a : List (Option Actuator)) (m : Nat) :
    UrgentOnly b { s with actuators := a, nextMark := m, ports := s.ports.set .field q } :=
  ⟨h.supervisor, h.station, h.enable, h.routine⟩

theorem calm_urgentOnly (b : State) : Calm (UrgentOnly b) where
  choices _ _ _ h := ⟨h.supervisor, h.station, h.enable, h.routine⟩
  cause _ _ l d hc h := h.setCause hc l d
  originate s pr c h := by
    rcases originateCommand_outcomes pr c s with ⟨before, w, after, hq, hb, hw⟩ | ⟨hn, hr⟩ | ⟨hn, hf⟩
    · rw [originateCommand_of_waiting hq hb hw]
      exact h.setField _ _ s.nextMark
    · rw [originateCommand_of_room hn hr]
      exact h.setField _ _ _
    · rw [originateCommand_lost hn hf]
      exact h.setCause (by decide) _ _
  rewrite s n x h := by
    rw [rewrite_eq]
    exact h.setField _ _ s.nextMark
  feed _ _ _ _ h := ⟨h.supervisor, h.station, h.enable, h.routine⟩
  dispatch _ _ _ h := ⟨h.supervisor, h.station, h.enable, h.routine⟩
  runback _ _ _ h := ⟨h.supervisor, h.station, h.enable, h.routine⟩
  trip _ _ _ h := ⟨h.supervisor, h.station, h.enable, h.routine⟩

theorem urgentOnly_restartPosts (s : State) : UrgentOnly s (restartPosts s) :=
  (calm_urgentOnly s).restartPosts ⟨rfl, rfl, fun _ => rfl, fun _ _ => rfl⟩

/-- At SOFT every cause is cleared but for its enable (R184). -/
theorem cause_softBase (s : State) (c : Cause) : (softBase s).cause c = ⟨false, (s.cause c).enable, false, none⟩ :=
  List.getD_map _ CauseRecord.clear CauseRecord.cleared

theorem routine_restartPosts (s : State) {c : Cause} (hc : 6 < c.code) :
    ((restartPosts (softBase s)).cause c).status = false := by
  rw [(urgentOnly_restartPosts (softBase s)).routine c hc, cause_softBase]

end Sys2Proof.Machine
end

section
/-! SUPPORT. What stands while RESET_N is held, and the stores after each reset (R38, R39, R139, R140). -/

namespace Sys2Proof.Machine

/-! ### While RESET_N is held -/

theorem executable_of_held {s : State} (h : s.resetAsserted = true) (row : Instr) : s.executable row = none :=
  Option.eq_none_iff_forall_ne_some.mpr fun ⟨_, _⟩ he => by
    have := (executable_eq_some he).1
    rw [h] at this
    cases this

theorem unlessHeld_of_held {s : State} (h : s.resetAsserted = true) (act : State → State) : unlessHeld act s = s :=
  if_pos h

/-- While RESET_N is held, a command that is no reset changes the limit table at most (log 4). -/
theorem exec_of_held {c : Instr} {s t : State} (hr : s.resetAsserted = true) (hc : isReset c = false)
    (hx : exec c s = .next t) : t = { s with limits := t.limits } := by
  have idle {u : State} (he : exec c s = .next u) (hu : u = s) : t = { s with limits := t.limits } := by
    rw [he, hu] at hx
    cases hx
    rfl
  cases c with
  | powerOn straps => cases hc
  | resetNAssert => cases hc
  | lineReset straps => cases hc
  | restart => cases hc
  | storageFault code =>
    cases hx
    unfold storageFault
    split <;> rfl
  | linkDown p => exact idle rfl (unlessHeld_of_held hr _)
  | linkUp p => exact idle rfl (unlessHeld_of_held hr _)
  | frameArrival p bytes => exact idle rfl (unlessHeld_of_held hr _)
  | transmissionStart p => exact idle rfl (unlessHeld_of_held hr _)
  | transmissionCompletion p => exact idle rfl (unlessHeld_of_held hr _)
  | secondTick order => exact idle rfl (unlessHeld_of_held hr _)
  | strokeExpiry l => exact idle rfl (unlessHeld_of_held hr _)
  | strokeTimeout l => exact idle rfl (unlessHeld_of_held hr _)
  | settleEnd l => exact idle rfl (unlessHeld_of_held hr _)
  | orderActivation => exact idle rfl (unlessHeld_of_held hr _)
  | runbackHoldExpiry => exact idle rfl (unlessHeld_of_held hr _)
  | integrityScrub => exact idle rfl (unlessHeld_of_held hr _)
  | boundaryClose l => exact idle rfl (unlessHeld_of_held hr _)
  | sweep order => exact idle rfl (unlessHeld_of_held hr _)
  | channelLost x => exact idle rfl (unlessHeld_of_held hr _)
  | drumGraceExpiry l => exact idle rfl (unlessHeld_of_held hr _)
  | _ => exact idle rfl (serve_of_not_executable (executable_of_held hr _) _)

/-! ### The assertion of RESET_N -/

/-- What the assertion of RESET_N writes once the owed work is taken (R38, R139, R185). -/
def asserted (s : State) : State :=
  { s with
    resetAsserted := true
    ports :=
      { field := { s.ports.field with transmitting := none }
        supervisor := { s.ports.supervisor with transmitting := none } }
    requests := []
    log := closedByReset s.plantTime s.log
    averager :=
      { one := s.averager.one.noOpenEpisodes
        two := s.averager.two.noOpenEpisodes } }

theorem assertReset_of_released {s : State} (h : s.resetAsserted = false) : assertReset s = asserted (settleAll s) :=
  if_neg (by simp [h])

theorem assertReset_of_held {s : State} (h : s.resetAsserted = true) : assertReset s = s := if_pos h

/-- What holds of the part as it stands and, once it does, of the asserted part, holds after an assertion. -/
theorem Stable.assertReset {P Q : State → Prop} (h : Stable P) {s : State} (hq : s.resetAsserted = true → Q s)
    (ha : ∀ u, P u → Q (asserted u)) (hs : P s) : Q (Machine.assertReset s) := by
  cases hr : s.resetAsserted with
  | true => exact (assertReset_of_held hr).symm ▸ hq hr
  | false => exact (assertReset_of_released hr).symm ▸ ha _ (h.settleAll hs)

/-! ### RESTART -/

theorem confirmed_of_found {n : Nat} {body : List Byte → State → Answer} {r : Request} {s : State}
    (h : n ≤ r.args.length) (hc : Confirms r s) : confirmed n body r s = body r.args s := by
  unfold confirmed
  exact (if_neg (Nat.not_lt.mpr h)).trans (if_pos hc)

theorem after_noticed_answer (st : Status) (b u : State) : ((answer st u).noticed b).after = noticesSince b u := rfl

/-- RESTART resets where its confirm block is found, and is refused otherwise (R192). -/
theorem restart_outcomes (s : State) :
    serve .restart (confirmed 0 restartBody) s =
      serve .restart (fun r u => answer .badConfirm (captureOffer r.confirmOffer u)) s ∨
    ∃ r rest, s.executable .restart = some (r, rest) ∧ serve .restart (confirmed 0 restartBody) s =
      placeReply r ((answer .done (softReset (s.beginExecution rest))).noticed (s.beginExecution rest)) := by
  unfold serve
  split
  · rename_i r rest he
    by_cases hc : Confirms r (s.beginExecution rest)
    · refine .inr ⟨r, rest, he, ?_⟩
      rw [confirmed_of_found (Nat.zero_le _) hc]
      rfl
    · refine .inl ?_
      rw [confirmed_not_found (Nat.zero_le _) hc]
  · exact .inl rfl

/-- What every primitive write keeps and SOFT's base state has, a SOFT reset keeps. -/
theorem Stable.softReset {P : State → Prop} (h : Stable P) (hb : ∀ s, P s → P (softBase s)) {s : State} (hs : P s) :
    P (softReset s) := by
  rw [softReset_eq]
  exact h.noticesSince _ (h.calm.restartPosts (hb _ (h.settleAll hs)))

theorem Lasting.restart {P : Bool → State → Prop} (h : Lasting P) (hb : ∀ s, P true s → P true (softBase s)) {s : State}
    (hs : P false s) : P false (Machine.serve .restart (confirmed 0 restartBody) s) := by
  rcases restart_outcomes s with he | ⟨r, rest, hx, he⟩ <;> rw [he]
  · exact h.serve (fun _ _ => (h.stable true).captureOffer _) _ hs
  · have reset := (h.stable true).softReset hb (h.begins _ _ _ _ hx hs)
    refine h.replies r _ ?_
    rw [after_noticed_answer]
    exact (h.stable true).noticesSince (s.beginExecution rest) reset

theorem Stable.lineReset {P : State → Prop} (h : Stable P) (straps : BitVec 8) {s : State}
    (hs : P (lineBase straps (Machine.assertReset s))) : P (Machine.lineReset straps s) :=
  h.calm.postBudget .two (h.calm.postBudget .one (h.calm.resetScrub hs))

/-! ### Queues -/

theorem bounded_initial (room : Nat) : Port.initial.Bounded room :=
  ⟨Nat.zero_le _, Nat.zero_le _, Nat.zero_le _, Nat.zero_le _⟩

/-- A state whose ports, requests and stroke queues are empty. -/
theorem queuesWithin_of_empty {s : State} (hr : s.reservation = false) (hp : ∀ p, (s.port p).Bounded 0)
    (hq : s.requests = []) (hf : ∀ l, (s.feedOf l).queue = []) : QueuesWithin false s where
  reservation := hr
  ports p := ⟨(hp p).transit, (hp p).urgent, (hp p).routine.trans (Nat.zero_le _), (hp p).credit⟩
  requests := hq ▸ Nat.zero_le _
  strokes l := hf l ▸ Nat.zero_le _

theorem queuesWithin_powerOn (straps : BitVec 8) (s : State) : QueuesWithin false (powerOn straps s) :=
  queuesWithin_of_empty rfl (fun p => by cases p <;> exact bounded_initial 0) rfl fun l => by cases l <;> rfl

theorem QueuesWithin.asserted {s : State} (h : QueuesWithin false s) : QueuesWithin false (asserted s) := by
  refine ⟨h.reservation, fun p => ?_, Nat.zero_le _, h.strokes⟩
  obtain ⟨ht, hu, hr, hc⟩ := h.ports p
  cases p with
  | field => exact ⟨ht, hu, hr, hc⟩
  | supervisor => exact ⟨ht, hu, hr, hc⟩

theorem QueuesWithin.assertReset {s : State} (h : QueuesWithin false s) : QueuesWithin false (assertReset s) :=
  (stable_queues false).assertReset (fun _ => h) (fun _ => QueuesWithin.asserted) h

theorem queuesWithin_lineReset (straps : BitVec 8) (s : State) : QueuesWithin false (lineReset straps s) :=
  (stable_queues false).lineReset straps
    (queuesWithin_of_empty rfl (fun p => by cases p <;> exact bounded_initial 0) rfl fun l => by cases l <;> rfl)

theorem queuesWithin_softBase (s : State) : QueuesWithin false (softBase s) :=
  queuesWithin_of_empty rfl
    (fun p => by cases p <;> exact ⟨Nat.zero_le _, Nat.zero_le _, Nat.zero_le _, Nat.zero_le _⟩) rfl
    fun l => by cases l <;> rfl

/-- A SOFT reset, with the NOTICEs that follow it, adds URGENT NOTICEs to what it posts, and leaves no ROUTINE frame at
SUPERVISOR. -/
theorem noticed_softReset (before s : State) :
    (∃ n, Noticed n urgentCauses (restartPosts (softBase (settleAll s))) (noticesSince before (softReset s))) ∧
      (noticesSince before (softReset s)).replies = [] := by
  have quiet (c : Cause) (hc : 6 < c.code) := routine_restartPosts (settleAll s) hc
  have unset {c : Cause} {b u : State} (hf : (u.cause c).status = false) (ht : (u.cause c).status = true) :
      (b.cause c).status = true := absurd (hf.symm.trans ht) Bool.false_ne_true
  obtain ⟨⟨n, hn⟩, hr⟩ := noticed_noticesSince (b := softBase (settleAll s)) fun c hc => unset (quiet c hc)
  have later (c : Cause) (hc : 6 < c.code) : ((softReset s).cause c).status = false := by
    rw [softReset_eq, hn.others c (fun hm => by have := mem_urgentCauses.mp hm; omega), quiet c hc]
  obtain ⟨⟨m, hm⟩, hr'⟩ := noticed_noticesSince (b := before) fun c hc => unset (later c hc)
  refine ⟨⟨n + m, hn.trans hm⟩, ?_⟩
  rw [hr', softReset_eq, hr]
  exact congrArg Port.routine (urgentOnly_restartPosts (softBase (settleAll s))).supervisor

/-- A REPLY for which there is room enters without a reserved slot. -/
theorem QueuesWithin.placed {r : Request} {a : Answer} (h : QueuesWithin false a.after)
    (hr : a.after.replies.length < 16) : QueuesWithin false (Machine.placeReply r a) := by
  refine ⟨rfl, fun p => ?_, h.requests, h.strokes⟩
  obtain ⟨ht, hu, hro, hc⟩ := h.ports p
  cases p with
  | field => exact ⟨ht, hu, hro, hc⟩
  | supervisor =>
    have hl : ((Machine.placeReply r a).port .supervisor).routine.length = a.after.replies.length + 1 := List.length_append
    exact ⟨ht, hu, hl ▸ hr, hc⟩

theorem queuesWithin_softReset (s : State) : QueuesWithin false (softReset s) := by
  rw [softReset_eq]
  exact (stable_queues false).noticesSince _ ((stable_queues false).calm.restartPosts (queuesWithin_softBase _))

theorem queuesWithin_restart {s : State} (h : QueuesWithin false s) :
    QueuesWithin false (serve .restart (confirmed 0 restartBody) s) := by
  rcases restart_outcomes s with he | ⟨r, rest, -, he⟩ <;> rw [he]
  · exact lasting_queues.serve (fun _ _ => (stable_queues true).captureOffer _) _ h
  · have hr := (noticed_softReset (s.beginExecution rest) (s.beginExecution rest)).2
    refine QueuesWithin.placed ?_ ?_ <;> rw [after_noticed_answer]
    · exact (stable_queues false).noticesSince _ (queuesWithin_softReset _)
    · rw [hr]
      exact Nat.zero_lt_succ 15

/-! ### Tables -/

theorem tablesSized_powerOn (straps : BitVec 8) (s : State) : (powerOn straps s).tablesSized :=
  ⟨rfl, rfl, rfl, rfl, rfl⟩

theorem tablesSized_assertReset {s : State} (h : s.tablesSized) : (assertReset s).tablesSized :=
  stable_tables.assertReset (fun _ => h) (fun _ hu => hu) h

theorem tablesSized_lineReset (straps : BitVec 8) {s : State} (h : s.tablesSized) :
    (lineReset straps s).tablesSized :=
  have asserted := tablesSized_assertReset h
  stable_tables.lineReset straps ⟨rfl, rfl, asserted.2.2.1, rfl, rfl⟩

theorem tablesSized_softBase {s : State} (h : s.tablesSized) : (softBase s).tablesSized := by
  obtain ⟨hm, hch, hl, hac, hat⟩ := h
  exact ⟨hm, (List.length_map ..).trans hch, hl, hac, (List.length_map ..).trans hat⟩

/-! ### The log -/

theorem status_closedByReset {n : Nat} {log : List LogEntry} {e : LogEntry} (h : e ∈ closedByReset n log) :
    e.status ≠ .open := by
  obtain ⟨e', -, rfl⟩ := List.mem_map.mp h
  split
  · exact fun ho => nomatch ho
  · assumption

/-- A log without OPEN entries, no longer than a sound one. -/
theorem logSound_of_closed {s : State} (hs : s.log.length ≤ 32) (hc : ∀ e ∈ s.log, e.status ≠ .open) : LogSound s where
  size := hs
  kinds e he ho := absurd ho (hc e he)
  episodes _ _ := (Nat.le_of_eq (List.countP_eq_zero.mpr fun e he ho => hc e he (isOpenEpisode_iff.mp ho).1)).trans
    (Nat.zero_le _)

/-- The assertion of RESET_N leaves no OPEN entry (R139). -/
theorem log_assertReset {s : State} (h : s.logBounded) :
    (assertReset s).log.length ≤ 32 ∧ ∀ e ∈ (assertReset s).log, e.status ≠ .open := by
  obtain ⟨sound, held⟩ := (logBounded_iff s).mp h
  exact stable_log.assertReset (Q := fun t => t.log.length ≤ 32 ∧ ∀ e ∈ t.log, e.status ≠ .open)
    (fun hr => ⟨sound.size, held hr⟩)
    (fun _ hu => ⟨(List.length_map ..).trans_le hu.size, fun _ => status_closedByReset⟩) sound

theorem logBounded_assertReset {s : State} (h : s.logBounded) : (assertReset s).logBounded :=
  have ⟨size, closed⟩ := log_assertReset h
  (logBounded_iff _).mpr ⟨logSound_of_closed size closed, fun _ => closed⟩

/-- A state that stands while RESET_N is not held. -/
theorem logBounded_of_released {s : State} (h : LogSound s) (hr : s.resetAsserted = false) : s.logBounded :=
  (logBounded_iff s).mpr ⟨h, fun ha => absurd (hr.symm.trans ha) Bool.false_ne_true⟩

theorem released_lineReset (straps : BitVec 8) (s : State) : (lineReset straps s).resetAsserted = false :=
  (stable_settings Settings.resetAsserted false).lineReset straps rfl

theorem logBounded_lineReset (straps : BitVec 8) {s : State} (h : s.logBounded) : (lineReset straps s).logBounded :=
  have ⟨size, closed⟩ := log_assertReset h
  logBounded_of_released (stable_log.lineReset straps (logSound_of_closed size closed)) (released_lineReset straps s)

theorem LogSound.softBase {s : State} (h : LogSound s) : LogSound (softBase s) :=
  logSound_of_closed ((List.length_map ..).trans_le h.size) fun _ => status_closedByReset

theorem released_restart {s : State} {b : Bool} (h : s.resetAsserted = b) :
    (serve .restart (confirmed 0 restartBody) s).resetAsserted = b :=
  (lasting_settings Settings.resetAsserted b).restart (fun _ hs => hs) h

theorem logBounded_restart {s : State} (h : s.logBounded) : (serve .restart (confirmed 0 restartBody) s).logBounded := by
  cases hr : s.resetAsserted with
  | false =>
    exact logBounded_of_released (lasting_log.restart (fun _ => LogSound.softBase) ((logBounded_iff s).mp h).1)
      (released_restart hr)
  | true =>
    rw [serve_of_not_executable (executable_of_held hr _)]
    exact h

end Sys2Proof.Machine
end

section
/-! The statement on the stores. -/

namespace Sys2Proof.Machine

/-- What the three bounds of the stores say of a step. -/
def StoresKept (s t : State) : Prop :=
  (s.queuesBounded → t.queuesBounded) ∧ (s.tablesSized → t.tablesSized) ∧ (s.logBounded → t.logBounded)

theorem storesKept_of_other {c : Instr} {s t : State} (hc : isReset c = false) (hx : exec c s = .next t) :
    StoresKept s t := by
  refine ⟨fun h => ?_, fun h => ?_, fun h => ?_⟩
  · exact (queuesBounded_iff t).mpr
      (lasting_queues.exec hc (fun part _ b => queues_keptBy b part) ((queuesBounded_iff s).mp h) hx)
  · exact lasting_tables.exec hc (fun part _ _ => tables_keptBy part) h hx
  · cases hr : s.resetAsserted with
    | false =>
      have released := settings_kept hc hx Settings.resetAsserted fun _ _ _ _ hw => (Prod.mk.inj hw.fixed).2
      exact logBounded_of_released
        (lasting_log.exec hc (fun part _ _ => log_keptBy part) ((logBounded_iff s).mp h).1 hx) (released.trans hr)
    | true =>
      rw [exec_of_held hr hc hx]
      exact h

theorem storesKept_of_reset {c : Instr} {s t : State} (hc : isReset c = true) (hx : exec c s = .next t) :
    StoresKept s t := by
  cases c with
  | powerOn straps =>
    cases hx
    exact ⟨fun _ => (queuesBounded_iff _).mpr (queuesWithin_powerOn straps s), fun _ => tablesSized_powerOn straps s,
      fun _ => logBounded_of_released (logSound_of_closed (Nat.zero_le _) fun _ he => nomatch he) rfl⟩
  | resetNAssert =>
    cases hx
    exact ⟨fun h => (queuesBounded_iff _).mpr ((queuesBounded_iff s).mp h).assertReset, tablesSized_assertReset,
      logBounded_assertReset⟩
  | lineReset straps =>
    cases hx
    exact ⟨fun _ => (queuesBounded_iff _).mpr (queuesWithin_lineReset straps s), tablesSized_lineReset straps,
      logBounded_lineReset straps⟩
  | restart =>
    cases hx
    exact ⟨fun h => (queuesBounded_iff _).mpr (queuesWithin_restart ((queuesBounded_iff s).mp h)),
      lasting_tables.restart fun _ => tablesSized_softBase, logBounded_restart⟩
  | _ => cases hc

/-- Settles O56: the primitive writes keep the bounds, and so does each reset. -/
theorem storesSizedAlways : Obligations.StoresSizedAlways := by
  intro s t hx
  unfold step at hx
  split at hx
  · rename_i c rest hp
    cases hc : isReset c with
    | false => exact storesKept_of_other (s := { s with pending := rest }) hc hx
    | true => exact storesKept_of_reset (s := { s with pending := rest }) hc hx
  · cases hx
    exact ⟨id, id, id⟩

end Sys2Proof.Machine
end

section
/-! SUPPORT. The assertion of RESET_N on a settled part, and the state of every block at LINE (R38, R77, R118, R172). -/

namespace Sys2Proof.Machine

/-! ### Settled states -/

theorem inTurn_of_fixed {α : Type} {act : α → State → State} {s : State} (h : ∀ x, act x s = s) (xs : List α) :
    inTurn xs act s = s :=
  inTurn_holds (P := fun t => t = s) (fun x _ ht => ht ▸ h x) rfl

theorem takeOwedTick_of_none {s : State} (h : s.owedTick = []) (u : TickUnit) : takeOwedTick u s = s := by
  unfold takeOwedTick
  rw [if_neg (by simp [h])]

theorem takeOwedSweep_of_none {s : State} (h : s.owedSweep = []) (u : SweepUnit) : takeOwedSweep u s = s := by
  unfold takeOwedSweep
  rw [if_neg (by simp [h])]

/-- Where no tick and no sweep is owed, a reset has none to take. -/
theorem settleAll_of_settled {s : State} (h : s.settled) : settleAll s = s := by
  obtain ⟨ht, hs⟩ := h
  have tick : settleTick s = s := inTurn_of_fixed (takeOwedTick_of_none ht) _
  have sweep : settleSweep s = s := inTurn_of_fixed (takeOwedSweep_of_none hs) _
  exact (congrArg settleSweep tick).trans sweep

theorem get_mapPollutants (f : PollutantState → PollutantState) (x : PerPollutant PollutantState) (p : Pollutant) :
    (mapPollutants f x).get p = f (x.get p) := by
  cases p <;> rfl

theorem pollutantOf_asserted (s : State) (l : Line) (p : Pollutant) :
    (asserted s).pollutantOf l p = { s.pollutantOf l p with openEpisode := none } := by
  cases l
  · exact get_mapPollutants _ s.averager.one.pollutants p
  · exact get_mapPollutants _ s.averager.two.pollutants p

theorem stationOf_eq (straps : BitVec 8) :
    stationOf straps = if 1 ≤ straps.toNat ∧ straps.toNat ≤ 250 then straps else 250#8 := by
  have hz : straps = 0#8 ↔ straps.toNat = 0 := ⟨fun h => h ▸ rfl, fun h => BitVec.eq_of_toNat_eq h⟩
  unfold stationOf
  by_cases h : 1 ≤ straps.toNat ∧ straps.toNat ≤ 250
  · rw [if_pos h, if_neg (by rw [hz]; omega)]
  · rw [if_neg h, if_pos (by rw [hz]; omega)]

/-! ### LINE -/

/-- The minutes used stand at or above the effective BUDGET (R118). -/
def State.spent (s : State) (l : Line) : Bool := decide (s.lineLimit l .budget ≤ ((s.averagerOf l).minutes : Int))

/-- In OPERATE the check code of the limit table does not match (R77). -/
def State.mismatched (s : State) : Bool :=
  decide (s.limits.mode = .operate ∧ crc s.limits.codeBytes ≠ s.limits.checkCode)

/-- A feed admission unit at LINE (R118). -/
def feedAtLine (spent : Bool) : Feed :=
  ⟨[], 0, .ready, 0, 0, 0, ⟨false, true, true, true, spent, true⟩, ⟨false, spent, false⟩, 60, 10, 5⟩

/-- The record of a cause at LINE, set with a detail or clear. -/
def causeAtLine (set : Bool) (l : Option Line) (detail : Nat) : CauseRecord :=
  if set then ⟨true, false, false, some ⟨l, 0, detail⟩⟩ else ⟨false, false, false, none⟩

/-- The attention unit at LINE: both trips, LIMIT_FAULT by the scrub and EMISSION by the minutes (R77, R118, R184). -/
def attentionAtLine (broken one two : Bool) : Attention :=
  ⟨[causeAtLine true (some .one) (if broken then 3 else 1), causeAtLine true (some .two) (if broken then 3 else 1),
    causeAtLine broken none 0, causeAtLine one (some .one) 2, causeAtLine two (some .two) 2] ++
    List.replicate 10 CauseRecord.clear, 0⟩

/-- LINE's base state with the scrub taken and EMISSION judged as given. -/
def atLine (straps : BitVec 8) (s : State) (broken one two : Bool) : State :=
  { lineBase straps s with
    feed := ⟨feedAtLine one, feedAtLine two⟩
    trip := ⟨⟨⟨true, broken, false, false⟩, 0⟩, ⟨⟨true, broken, false, false⟩, 0⟩⟩
    attention := attentionAtLine broken one two }

theorem lineBase_eq (straps : BitVec 8) (s : State) : lineBase straps s = atLine straps s false false false := rfl

theorem scrub_atLine {straps : BitVec 8} {s : State} (h : crc s.limits.codeBytes ≠ s.limits.checkCode) :
    scrub (atLine straps s false false false) = atLine straps s true false false :=
  (if_neg h).trans rfl

theorem resetScrub_atLine (straps : BitVec 8) (s : State) :
    resetScrub (atLine straps s false false false) = atLine straps s s.mismatched false false := by
  have hm : (atLine straps s false false false).limits.mode = s.limits.mode := rfl
  unfold resetScrub State.mismatched
  rw [hm]
  cases s.limits.mode with
  | commission => simp
  | operate =>
    by_cases h : crc s.limits.codeBytes = s.limits.checkCode
    · simp only [h, ne_eq, not_true_eq_false, and_false, decide_false]
      exact if_pos h
    · simp only [ne_eq, h, not_false_eq_true, and_self, decide_true]
      exact scrub_atLine h

theorem postBudget_one_atLine (straps : BitVec 8) (s : State) (broken two : Bool) :
    postBudget .one (atLine straps s broken false two) = atLine straps s broken (s.spent .one) two := by
  by_cases h : s.lineLimit .one .budget ≤ ((s.averagerOf .one).minutes : Int)
  · rw [State.spent, decide_eq_true h]
    exact (if_pos h).trans rfl
  · rw [State.spent, decide_eq_false h]
    exact if_neg h

theorem postBudget_two_atLine (straps : BitVec 8) (s : State) (broken one : Bool) :
    postBudget .two (atLine straps s broken one false) = atLine straps s broken one (s.spent .two) := by
  by_cases h : s.lineLimit .two .budget ≤ ((s.averagerOf .two).minutes : Int)
  · rw [State.spent, decide_eq_true h]
    exact (if_pos h).trans rfl
  · rw [State.spent, decide_eq_false h]
    exact if_neg h

/-- Every block at LINE, where RESET_N is held. -/
theorem lineReset_of_held {s : State} (h : s.resetAsserted = true) (straps : BitVec 8) :
    lineReset straps s = atLine straps s s.mismatched (s.spent .one) (s.spent .two) := by
  rw [lineReset, assertReset_of_held h, lineBase_eq, resetScrub_atLine, postBudget_one_atLine, postBudget_two_atLine]

theorem enable_causeAtLine (set : Bool) (l : Option Line) (d : Nat) : (causeAtLine set l d).enable = false := by
  unfold causeAtLine
  split <;> rfl

/-- No cause is enabled at LINE, so ATTN is released (R181, R184). -/
theorem atLine_attn (straps : BitVec 8) (s : State) (broken one two : Bool) :
    (atLine straps s broken one two).attn = false := by
  simp [State.attn, atLine, attentionAtLine, enable_causeAtLine, CauseRecord.clear, List.replicate]

theorem held_assertReset (s : State) : (assertReset s).resetAsserted = true :=
  (stable_settings (fun _ => ()) ()).assertReset (Q := fun t => t.resetAsserted = true) id (fun _ _ => rfl) rfl

end Sys2Proof.Machine
end

section
/-! The statements on POWER_ON and LINE. -/

namespace Sys2Proof.Machine

/-- Settles O3, by the values of the reset state. -/
theorem resetValues : Obligations.ResetValues := by
  refine ⟨fun straps s => ?_, rfl, rfl, rfl, rfl, rfl, rfl, rfl, fun p => ?_, fun l => ?_, rfl, rfl, rfl, rfl, rfl, rfl,
    rfl, rfl, rfl, rfl, rfl, rfl, rfl, by decide, by decide, by decide⟩
  · rw [← stationOf_eq]
    rfl
  · cases p <;> rfl
  · cases l
    · exact ⟨rfl, rfl, rfl, rfl, rfl, rfl, rfl, rfl, rfl, rfl, rfl, rfl⟩
    · exact ⟨rfl, rfl, rfl, rfl, rfl, rfl, rfl, rfl, rfl, rfl, rfl, rfl⟩

/-- Settles O5: a settled part has no owed work to take before RESET_N is asserted. -/
theorem resetAssertionEffect : Obligations.ResetAssertionEffect := by
  intro s
  refine ⟨fun h => congrArg Host.Outcome.next (assertReset_of_held h), fun h hset => ⟨asserted s, ?_, rfl,
    pollutantOf_asserted s, fun l => ⟨by cases l <;> rfl, rfl⟩, rfl⟩⟩
  have : assertReset s = asserted s := (assertReset_of_released h).trans (congrArg asserted (settleAll_of_settled hset))
  exact congrArg Host.Outcome.next this

/-- Settles O6: the assertion leaves RESET_N held, and the release takes every block to LINE. -/
theorem lineResetEffect : Obligations.LineResetEffect := by
  intro straps s
  refine ⟨fun a ha => ?_, ⟨assertReset s, lineReset straps s, rfl, held_assertReset s, rfl⟩, fun h => ?_⟩
  · cases ha
    have : lineReset straps s = lineReset straps (assertReset s) := by
      rw [lineReset, lineReset, assertReset_of_held (held_assertReset s)]
    exact congrArg Host.Outcome.next this
  · intro unbound broken spent
    refine ⟨atLine straps s s.mismatched (s.spent .one) (s.spent .two),
      congrArg Host.Outcome.next (lineReset_of_held h straps), ?_, fun l => ?_, rfl, fun c hc => ?_, rfl, rfl, ?_⟩
    · rw [← stationOf_eq]
      rfl
    · cases l
      · exact ⟨rfl, rfl, rfl, rfl, rfl, fun p => by cases p <;> rfl, rfl, rfl⟩
      · exact ⟨rfl, rfl, rfl, rfl, rfl, fun p => by cases p <;> rfl, rfl, rfl⟩
    · cases c with
      | tripOne | tripTwo | limitFault | feedHoldEmissionOne | feedHoldEmissionTwo => exact absurd (by decide) hc
      | _ => rfl
    · exact atLine_attn straps s _ _ _

end Sys2Proof.Machine
end

section
/-! SUPPORT. What actions taken in any order establish (log 5). -/

namespace Sys2Proof.Machine

section
variable {I D : State → Prop}

/-- What an action of a queue establishes and every action keeps, while the others keep the ground it stands on. -/
structure Establishes (I D : State → Prop) (agents : List (List (State → State))) : Prop where
  ground : ∀ q ∈ agents, ∀ act ∈ q, ∀ s, I s → I (act s)
  keeps : ∀ q ∈ agents, ∀ act ∈ q, ∀ s, I s → D s → D (act s)

theorem Establishes.mono {agents agents' : List (List (State → State))} (h : Establishes I D agents)
    (hs : ∀ q ∈ agents', ∀ act ∈ q, ∃ q' ∈ agents, act ∈ q') : Establishes I D agents' where
  ground q hq act hact := by
    obtain ⟨q', hq', hact'⟩ := hs q hq act hact
    exact h.ground q' hq' act hact'
  keeps q hq act hact := by
    obtain ⟨q', hq', hact'⟩ := hs q hq act hact
    exact h.keeps q' hq' act hact'

theorem sum_length_filter (agents : List (List (State → State))) :
    ((agents.filter fun q => !q.isEmpty).map List.length).sum = (agents.map List.length).sum := by
  induction agents with
  | nil => rfl
  | cons q rest ih => cases q <;> simp [ih]

/-- Once all actions are taken, in whatever order, what one of them establishes holds. -/
theorem interleave_establishes (hi : ∀ s n, I s → I (s.choose n).2) (hd : ∀ s n, I s → D s → D (s.choose n).2)
    (fuel : Nat) : ∀ (agents : List (List (State → State))) (s : State), (agents.map List.length).sum ≤ fuel →
      Establishes I D agents → (D s ∨ ∃ q ∈ agents, ∃ act ∈ q, ∀ s, I s → D (act s)) → I s →
      D (interleave fuel agents s) := by
  induction fuel with
  | zero =>
    intro agents s hsum _ hor _
    refine hor.resolve_right fun ⟨q, hq, act, hact, _⟩ => ?_
    have := List.le_sum_of_mem (List.mem_map_of_mem hq (f := List.length))
    have := List.length_pos_of_mem hact
    omega
  | succ fuel ih =>
    intro agents s hsum he hor hs
    unfold interleave
    dsimp only
    generalize hw : agents.filter (fun q => !q.isEmpty) = waiting
    have hmem : ∀ q ∈ waiting, q ∈ agents ∧ q ≠ [] := by
      subst hw
      exact fun q hq => by simpa using hq
    have hchosen := hi s waiting.length hs
    have hor' : D (s.choose waiting.length).2 ∨ ∃ q ∈ waiting, ∃ act ∈ q, ∀ s, I s → D (act s) := by
      refine hor.imp (hd s _ hs) fun ⟨q, hq, act, hact, ha⟩ => ⟨q, ?_, act, hact, ha⟩
      subst hw
      exact List.mem_filter.mpr ⟨hq, by simpa using List.ne_nil_of_mem hact⟩
    split
    · rename_i act rest hk
      obtain ⟨hlt, hget⟩ := List.getElem?_eq_some_iff.mp hk
      obtain ⟨before, after, hwait, -, hset⟩ := List.exists_of_set (a' := rest) hlt
      rw [hget] at hwait
      rw [hset]
      have hact := he.ground (act :: rest) (hmem _ (hwait ▸ by simp)).1 act List.mem_cons_self
      have hkeep := he.keeps (act :: rest) (hmem _ (hwait ▸ by simp)).1 act List.mem_cons_self
      refine ih _ _ ?_ (he.mono fun q hq a ha => ?_) ?_ (hact _ hchosen)
      · have := sum_length_filter agents
        rw [hw, hwait] at this
        simp only [List.map_append, List.map_cons, List.sum_append, List.sum_cons, List.length_cons] at this ⊢
        omega
      · rcases List.mem_append.mp hq with hb | hb
        · exact ⟨q, (hmem q (hwait ▸ by simp [hb])).1, ha⟩
        · rcases List.mem_cons.mp hb with rfl | hb
          · exact ⟨act :: q, (hmem _ (hwait ▸ by simp)).1, List.mem_cons_of_mem _ ha⟩
          · exact ⟨q, (hmem q (hwait ▸ by simp [hb])).1, ha⟩
      · rcases hor' with hD | ⟨q, hq, a, ha, hall⟩
        · exact .inl (hkeep _ hchosen hD)
        · rw [hwait] at hq
          rcases List.mem_append.mp hq with hb | hb
          · exact .inr ⟨q, by simp [hb], a, ha, hall⟩
          · rcases List.mem_cons.mp hb with rfl | hb
            · rcases List.mem_cons.mp ha with rfl | ha
              · exact .inl (hall _ hchosen)
              · exact .inr ⟨rest, by simp, a, ha, hall⟩
            · exact .inr ⟨q, by simp [hb], a, ha, hall⟩
    · rename_i hnone
      refine hor'.resolve_right fun ⟨q, hq, _⟩ => ?_
      have hlt := choose_lt s (List.length_pos_of_mem hq)
      have hget := List.getElem?_eq_getElem hlt
      cases hfirst : waiting[(s.choose waiting.length).1] with
      | nil => exact (hmem _ (List.getElem_mem hlt)).2 hfirst
      | cons act rest => exact hnone act rest (hfirst ▸ hget)

theorem inAnyOrder_establishes (hi : ∀ s n, I s → I (s.choose n).2) (hd : ∀ s n, I s → D s → D (s.choose n).2)
    {acts : List (State → State)} (hg : ∀ act ∈ acts, ∀ s, I s → I (act s)) (hk : ∀ act ∈ acts, ∀ s, I s → D s → D (act s))
    {act : State → State} (hm : act ∈ acts) (ha : ∀ s, I s → D (act s)) {s : State} (hs : I s) :
    D (inAnyOrder acts s) := by
  have single {q : List (State → State)} (hq : q ∈ acts.map fun a => [a]) {a : State → State} (h : a ∈ q) : a ∈ acts := by
    obtain ⟨b, hb, rfl⟩ := List.mem_map.mp hq
    rwa [List.mem_singleton.mp h]
  refine interleave_establishes hi hd _ _ s ?_
    ⟨fun q hq a h => hg a (single hq h), fun q hq a h => hk a (single hq h)⟩
    (.inr ⟨[act], List.mem_map.mpr ⟨act, hm, rfl⟩, act, List.mem_singleton.mpr rfl, ha⟩) hs
  simp [Function.comp_def]

end

end Sys2Proof.Machine
end

section
/-! SUPPORT. What a SOFT reset's posts change: nothing that the plant's units have no part in, and what they derive from
channels without values (R62, R119, R158, R172, R173). -/

namespace Sys2Proof.Machine

/-! ### What the plant's units leave -/

theorem calm_lessPlant (b : State) : Calm fun s => s.lessPlant = b.lessPlant where
  choices _ _ _ h := h
  cause _ _ _ _ _ h := h
  originate s pr c h := (lessPlant_of_origins (lessOrigins_originateCommand pr c s)).trans h
  rewrite s n x h := (lessPlant_of_origins (lessOrigins_rewrite s n x)).trans h
  feed _ _ _ _ h := h
  dispatch _ _ _ h := h
  runback _ _ _ h := h
  trip _ _ _ h := h

theorem SameActuators.trans {s t u : State} (h : SameActuators s t) (h' : SameActuators t u) : SameActuators s u :=
  sameActuators_iff.mpr ((sameActuators_iff.mp h').trans (sameActuators_iff.mp h))

theorem calm_sameActuators (b : State) : Calm (SameActuators b) where
  choices _ _ _ h := h
  cause _ _ _ _ _ h := h
  originate s pr c h := h.trans (sameActuators_originateCommand pr c s)
  rewrite s n x h := h.trans (sameActuators_rewrite s n x)
  feed _ _ _ _ h := h
  dispatch _ _ _ h := h
  runback _ _ _ h := h
  trip _ _ _ h := h

/-- A port without transit frames whose counter has moved only where a frame waits that was originated. -/
structure Port.Originating (b q : Port) : Prop where
  linkUp : q.linkUp = b.linkUp
  transmitting : q.transmitting = b.transmitting
  transit : q.transit = []
  credit : q.credit = b.credit
  errors : q.errors = b.errors
  seq : q.urgent = [] → q.routine = [] → q.seq = b.seq

/-- A port that a command has entered. -/
theorem Port.Originating.entered {b q : Port} (h : b.Originating q) {pr : Priority} {ws : List Waiting} (hw : ws ≠ [])
    (n seq : Nat) : b.Originating (Port.superseded { q.setOrigin pr ws with seq := seq } pr n) := by
  obtain ⟨hl, ht, hf, hc, he, -⟩ := h
  cases pr with
  | urgent => exact ⟨hl, ht, hf, hc, he, fun hu _ => absurd hu hw⟩
  | routine => exact ⟨hl, ht, hf, hc, he, fun _ hr => absurd hr hw⟩

theorem Port.Originating.rewritten {b q : Port} (h : b.Originating q) (n : Nat) (x : Bound) :
    b.Originating (q.rewritten n x) := by
  obtain ⟨hl, ht, hf, hc, he, hs⟩ := h
  exact ⟨hl, ht, by simp [Port.rewritten, hf], hc, he, fun hu hr => hs (List.map_eq_nil_iff.mp hu) (List.map_eq_nil_iff.mp hr)⟩

theorem calm_originating (b : Port) : Calm fun s => b.Originating (s.port .field) where
  choices _ _ _ h := h
  cause _ _ _ _ _ h := h
  originate s pr c h := by
    have put (a : List (Option Actuator)) (m : Nat) (q : Port) :
        State.port { s with actuators := a, nextMark := m, ports := s.ports.set .field q } .field = q :=
      PerPort.get_set_self s.ports .field q
    rcases originateCommand_outcomes pr c s with ⟨before, w, after, hq, hb, hw⟩ | ⟨hn, hr⟩ | ⟨hn, hf⟩
    · rw [originateCommand_of_waiting hq hb hw]
      refine (put _ s.nextMark _).symm ▸ ?_
      have hne := List.append_ne_nil_of_right_ne_nil before
        (List.cons_ne_nil { w with frame := { w.frame with payload := c.bytes } } after)
      cases pr with
      | urgent => exact h.entered (pr := .urgent) hne c.number (s.port .field).seq
      | routine => exact h.entered (pr := .routine) hne c.number (s.port .field).seq
    · rw [originateCommand_of_room hn hr]
      exact (put _ _ _).symm ▸ h.entered (by simp) c.number _
    · rw [originateCommand_lost hn hf]
      exact h
  rewrite s n x h := (field_rewrite s n x).symm ▸ h.rewritten n x
  feed _ _ _ _ h := h
  dispatch _ _ _ h := h
  runback _ _ _ h := h
  trip _ _ _ h := h

/-- The trip units, and the causes but for ORIGIN_LOSS, as in another state. -/
structure SameTrips (b s : State) : Prop where
  trip : s.trip = b.trip
  length : s.attention.causes.length = b.attention.causes.length
  cause : ∀ c, c ≠ .originLoss → s.cause c = b.cause c

theorem plain_sameTrips (b : State) : Plain (SameTrips b) where
  choices _ _ _ h := ⟨h.trip, h.length, h.cause⟩
  originate s pr c h := by
    rcases originateCommand_outcomes pr c s with ⟨before, w, after, hq, hb, hw⟩ | ⟨hn, hr⟩ | ⟨hn, hf⟩
    · rw [originateCommand_of_waiting hq hb hw]
      exact ⟨h.trip, h.length, h.cause⟩
    · rw [originateCommand_of_room hn hr]
      exact ⟨h.trip, h.length, h.cause⟩
    · rw [originateCommand_lost hn hf]
      exact ⟨h.trip, (List.length_set ..).trans h.length, fun c' hc => (s.cause_modCause_ne _ hc).trans (h.cause c' hc)⟩
  rewrite s n x h := by
    rw [rewrite_eq]
    exact ⟨h.trip, h.length, h.cause⟩
  feed _ _ _ _ h := ⟨h.trip, h.length, h.cause⟩
  dispatch _ _ _ h := ⟨h.trip, h.length, h.cause⟩
  runback _ _ _ h := ⟨h.trip, h.length, h.cause⟩

/-! ### Holds -/

/-- The feed admission units are no part of what originating a command may change. -/
theorem feed_originate (e : Nat) (v : Verb) (x : Int) (pr : Priority) (s : State) : (originate e v x pr s).feed = s.feed :=
  congrArg (fun t => t.feed) (lessOrigins_originate e v x pr s)

/-- With no stroke in flight a hold cause is added without more (R108). -/
theorem addHold_of_idle {l : Line} {s : State} (h : (s.feedOf l).engine = .ready) (k : HoldCause)
    (hk : (s.feedOf l).holds.get k = false) :
    addHold l k s = s.modFeed l fun f => { f with holds := f.holds.set k true } := by
  unfold addHold
  rw [if_neg (by simp [hk])]
  refine abortStroke_of_idle fun ram target => ?_
  rw [State.feedOf_modFeed_self, h]
  exact fun he => nomatch he

/-- With no stroke queued a check releases nothing (R100). -/
theorem releaseCheck_of_empty {l : Line} {s : State} (h : (s.feedOf l).queue = []) : releaseCheck l s = s := by
  unfold releaseCheck release
  rw [h]
  split <;> rfl

theorem removeHold_of_empty {l : Line} {s : State} (h : (s.feedOf l).queue = []) (k : HoldCause)
    (hk : (s.feedOf l).holds.get k = true) :
    removeHold l k s = s.modFeed l fun f => { f with holds := f.holds.set k false } := by
  unfold removeHold
  rw [if_pos hk]
  exact releaseCheck_of_empty (by rw [State.feedOf_modFeed_self]; exact h)

/-- A feed admission unit without the holds that a SOFT reset derives: FURNACE_COLD, NO_SINK and NO_RAM (R119). -/
def Feed.lessDerived (f : Feed) : Feed :=
  { f with holds := { f.holds with furnaceCold := true, noSink := true, noRam := true } }

/-- The holds that a SOFT reset derives. -/
def HoldCause.derived : HoldCause → Bool
  | .furnaceCold => true
  | .noSink => true
  | .noRam => true
  | _ => false

theorem lessDerived_set {k : HoldCause} (h : k.derived = true) (f : Feed) (b : Bool) :
    Feed.lessDerived { f with holds := f.holds.set k b } = f.lessDerived := by
  cases k with
  | furnaceCold | noSink | noRam => rfl
  | _ => cases h

/-- The dispatch unit without what a SOFT reset derives (R158). -/
def DispatchUnit.lessDerived (d : DispatchUnit) : DispatchUnit :=
  { d with sink := .none, steamLoad := 0, allowed := 0, online := false }

/-- No channel has a value, no stroke is queued or in flight, EMISSION is not held. -/
structure AtSoft (b : State) : Prop where
  values : ∀ i c, b.channel i = some c → c.own = none
  queue : ∀ l, (b.feedOf l).queue = []
  engine : ∀ l, (b.feedOf l).engine = .ready
  reasons : ∀ l, (b.feedOf l).reasons = ReasonSet.empty
  emission : ∀ l, (b.feedOf l).holds.emission = false

/-- A state in the evaluations of a SOFT reset from a base state: dispatch and feed admission have changed in what they
derive alone. -/
structure Evaluating (b s : State) : Prop where
  plant : s.lessPlant = b.lessPlant
  runback : s.runback = b.runback
  dispatch : s.dispatch.lessDerived = b.dispatch.lessDerived
  feed : ∀ l, (s.feedOf l).lessDerived = (b.feedOf l).lessDerived

theorem evaluating_refl (b : State) : Evaluating b b := ⟨rfl, rfl, rfl, fun _ => rfl⟩

/-- A state that differs by what originating a command may change. -/
theorem Evaluating.of_origins {b s t : State} (h : Evaluating b s) (ho : t.lessOrigins = s.lessOrigins) :
    Evaluating b t where
  plant := (lessPlant_of_origins ho).trans h.plant
  runback := (congrArg (fun u => u.runback) ho).trans h.runback
  dispatch := (congrArg (fun u => u.dispatch.lessDerived) ho).trans h.dispatch
  feed l := (congrArg (fun u => (u.feed.get l).lessDerived) ho).trans (h.feed l)

theorem Evaluating.modDispatch {b s : State} (h : Evaluating b s) {g : DispatchUnit → DispatchUnit}
    (hg : ∀ d, (g d).lessDerived = DispatchUnit.lessDerived d) : Evaluating b (s.modDispatch g) :=
  ⟨h.plant, h.runback, (hg _).trans h.dispatch, h.feed⟩

theorem Evaluating.choose {b s : State} (h : Evaluating b s) (n : Nat) : Evaluating b (s.choose n).2 := by
  unfold State.choose
  split
  · exact h
  · split
    · exact ⟨h.plant, h.runback, h.dispatch, h.feed⟩
    · exact ⟨h.plant, h.runback, h.dispatch, h.feed⟩

section
variable {b s : State} (h : Evaluating b s)
include h

theorem Evaluating.queue (hb : AtSoft b) (l : Line) : (s.feedOf l).queue = [] :=
  (congrArg Feed.queue (h.feed l)).trans (hb.queue l)

theorem Evaluating.engine (hb : AtSoft b) (l : Line) : (s.feedOf l).engine = .ready :=
  (congrArg Feed.engine (h.feed l)).trans (hb.engine l)

/-- No channel role has a value (R62). -/
theorem Evaluating.roleValue (hb : AtSoft b) (role : Option Nat) : s.roleValue role = none := by
  have hch : s.channels = b.channels := congrArg (fun u => u.channels) h.plant
  unfold State.roleValue State.effective
  cases role with
  | none => rfl
  | some i =>
    show (s.supplier i).bind _ = none
    cases s.supplier i with
    | none => rfl
    | some j =>
      show (s.channel j).bind (·.own) = none
      cases hc : s.channel j with
      | none => rfl
      | some c =>
        refine hb.values j c ?_
        rw [← hc, State.channel, State.channel, hch]

theorem Evaluating.turbineOnline (hb : AtSoft b) : s.turbineOnline = false := by
  simp [State.turbineOnline, h.roleValue hb]

theorem Evaluating.sinkFromStatus (hb : AtSoft b) : s.sinkFromStatus = .none := by
  simp [State.sinkFromStatus, h.turbineOnline hb, h.roleValue hb]

theorem Evaluating.allowedNow (hb : AtSoft b) : s.allowedNow = 0 := by
  simp [State.allowedNow, h.turbineOnline hb]

theorem Evaluating.setHold {l : Line} {k : HoldCause} (hk : k.derived = true) (x : Bool) :
    Evaluating b (s.modFeed l fun f => { f with holds := f.holds.set k x }) := by
  refine ⟨h.plant, h.runback, h.dispatch, fun l' => ?_⟩
  rw [State.feedOf_modFeed]
  split
  · rename_i hl
    rw [lessDerived_set hk, hl]
    exact h.feed l
  · exact h.feed l'

theorem Evaluating.addHold (hb : AtSoft b) (l : Line) {k : HoldCause} (hk : k.derived = true) :
    Evaluating b (addHold l k s) := by
  cases hh : (s.feedOf l).holds.get k with
  | true => exact (addHold_of_held hh).symm ▸ h
  | false => exact (addHold_of_idle (h.engine hb l) k hh).symm ▸ h.setHold hk true

theorem Evaluating.removeHold (hb : AtSoft b) (l : Line) {k : HoldCause} (hk : k.derived = true) :
    Evaluating b (removeHold l k s) := by
  cases hh : (s.feedOf l).holds.get k with
  | false => exact (removeHold_of_absent hh).symm ▸ h
  | true => exact (removeHold_of_empty (h.queue hb l) k hh).symm ▸ h.setHold hk false

end

end Sys2Proof.Machine
end

section
/-! SUPPORT. The evaluations of a SOFT reset: sink state NONE, allowed load 0, FURNACE_COLD and NO_SINK held, the envelope at
its floor (R119, R158, R173). -/

namespace Sys2Proof.Machine

/-! ### Holds that stay -/

/-- A line's hold set contains a cause. -/
def State.Held (s : State) (l : Line) (k : HoldCause) : Prop := (s.feedOf l).holds.get k = true

/-- What a state holds, another holds. -/
def HoldsKept (s t : State) : Prop := ∀ l k, s.Held l k → t.Held l k

theorem holds_abortStroke (l l' : Line) (s : State) : ((abortStroke l s).feedOf l').holds = (s.feedOf l').holds := by
  unfold abortStroke
  split
  · rw [State.feedOf_modFeed]
    split
    · rename_i hl
      subst hl
      exact congrArg (fun f => (PerLine.get f l').holds) (feed_originate _ _ _ _ s)
    · exact congrArg (fun f => (PerLine.get f l').holds) (feed_originate _ _ _ _ s)
  · rfl

theorem HoldSet.get_set (x : HoldSet) (k k' : HoldCause) (b : Bool) :
    (x.set k b).get k' = if k' = k then b else x.get k' := by
  cases k <;> cases k' <;> rfl

theorem held_modFeed_set (s : State) (l l' : Line) (k k' : HoldCause) (x : Bool) :
    ((s.modFeed l fun f => { f with holds := f.holds.set k x }).feedOf l').holds.get k' =
      if l' = l ∧ k' = k then x else (s.feedOf l').holds.get k' := by
  rw [State.feedOf_modFeed]
  by_cases hl : l' = l
  · subst hl
    simp [HoldSet.get_set]
  · simp [hl]

/-- An added cause is held, and those held before are (R108). -/
theorem held_addHold (l : Line) (k : HoldCause) (s : State) : (addHold l k s).Held l k ∧ HoldsKept s (addHold l k s) := by
  unfold addHold
  split
  · exact ⟨by assumption, fun _ _ h => h⟩
  · refine ⟨?_, fun l' k' h => ?_⟩
    · show HoldSet.get _ k = true
      rw [holds_abortStroke, held_modFeed_set]
      simp
    · show HoldSet.get _ k' = true
      rw [holds_abortStroke, held_modFeed_set]
      split
      · rfl
      · exact h

theorem holdsKept_of_feed {s t : State} (h : t.feed = s.feed) : HoldsKept s t := fun l k hk => by
  unfold State.Held State.feedOf at hk ⊢
  rwa [h]

theorem HoldsKept.trans {s t u : State} (h : HoldsKept s t) (h' : HoldsKept t u) : HoldsKept s u :=
  fun l k hk => h' l k (h l k hk)

/-- A choice takes from the supply of choices alone (log 5). -/
theorem choose_eq (s : State) (n : Nat) :
    (s.choose n).2 = { s with script := (s.choose n).2.script, freeCount := (s.choose n).2.freeCount } := by
  unfold State.choose
  split
  · rfl
  · split <;> rfl

theorem dispatch_choose (s : State) (n : Nat) : (s.choose n).2.dispatch = s.dispatch := by
  rw [choose_eq]

theorem feed_choose (s : State) (n : Nat) : (s.choose n).2.feed = s.feed := by
  rw [choose_eq]

/-! ### One evaluation -/

/-- Where the furnace temperature is UNAVAILABLE, FURNACE_COLD is held (R111). -/
theorem evalFurnace_of_unavailable {l : Line} {s : State} (h : s.roleValue (s.binding l).furnaceTemp = none) :
    (evalFurnace l s).lessOrigins = (addHold l .furnaceCold s).lessOrigins := by
  unfold evalFurnace
  rw [h]
  dsimp only
  split
  · rename_i hh
    rw [addHold_of_held (c := .furnaceCold) hh]
  · split
    · split
      · exact lessOrigins_originate _ _ _ _ _
      · rfl
    · rfl

/-- The allowed load is all that its computation changes of the dispatch unit. -/
theorem dispatch_recomputeAllowed (pr : Priority) (s : State) :
    (recomputeAllowed pr s).dispatch = { s.dispatch with allowed := s.allowedNow } := by
  have follow (t : State) : (if t.dispatch.follow then followAllowed t else t).dispatch = t.dispatch := by
    split
    · exact congrArg (fun u => u.dispatch) (lessOrigins_followAllowed t)
    · rfl
  unfold recomputeAllowed
  dsimp only
  split
  · rename_i he
    rw [he]
  · rw [follow]
    split
    · exact congrArg (fun u => u.dispatch)
        (lessOrigins_turbineEnforce s.allowedNow pr (s.modDispatch fun d => { d with allowed := s.allowedNow }))
    · rfl

theorem recomputeAllowed_of_same {pr : Priority} {s : State} (h : s.allowedNow = s.dispatch.allowed) :
    recomputeAllowed pr s = s := if_pos h

section
variable {b s : State} (hb : AtSoft b) (h : Evaluating b s)
include hb h

theorem Evaluating.evalFurnace (l : Line) : Evaluating b (evalFurnace l s) ∧
    (Machine.evalFurnace l s).dispatch = s.dispatch ∧ (Machine.evalFurnace l s).Held l .furnaceCold ∧
      HoldsKept s (Machine.evalFurnace l s) := by
  have ho := evalFurnace_of_unavailable (h.roleValue hb (s.binding l).furnaceTemp)
  have feed : (Machine.evalFurnace l s).feed = (Machine.addHold l .furnaceCold s).feed := congrArg (fun u => u.feed) ho
  obtain ⟨held, kept⟩ := held_addHold l .furnaceCold s
  exact ⟨(h.addHold hb l rfl).of_origins ho, congrArg (fun u => u.dispatch) (lessFeed_evalFurnace l s),
    holdsKept_of_feed feed l _ held, kept.trans (holdsKept_of_feed feed)⟩

/-- The sink state derived without status values is NONE (R141). -/
theorem Evaluating.deriveSink : Evaluating b (deriveSink s) ∧ (Machine.deriveSink s).dispatch.sink = .none ∧
    HoldsKept s (Machine.deriveSink s) := by
  unfold Machine.deriveSink
  rw [h.sinkFromStatus hb]
  dsimp only
  split
  · rename_i he
    exact ⟨h, he.symm, fun _ _ hk => hk⟩
  · refine inAnyOrder_invariant (fun t => Evaluating b t ∧ t.dispatch.sink = .none ∧ HoldsKept s t)
      (fun t n ⟨ht, hs, hk⟩ => ⟨ht.choose n, ?_, ?_⟩) _ (fun act hact t ⟨ht, hs, hk⟩ => ?_) _
      ⟨h.modDispatch fun _ => rfl, rfl, fun _ _ hk => hk⟩
    · exact (congrArg DispatchUnit.sink (dispatch_choose t n)).trans hs
    · exact hk.trans (holdsKept_of_feed (feed_choose t n))
    · have sink (l : Line) : Machine.sinkChange l t = Machine.addHold l .noSink t := if_pos hs
      have done (l : Line) : Evaluating b (Machine.sinkChange l t) ∧ (Machine.sinkChange l t).dispatch.sink = .none ∧
          HoldsKept s (Machine.sinkChange l t) := by
        rw [sink]
        exact ⟨ht.addHold hb l rfl, (congrArg (fun u => u.dispatch.sink) (lessFeed_addHold l .noSink t)).trans hs,
          hk.trans (held_addHold l .noSink t).2⟩
      simp only [List.mem_cons, List.not_mem_nil, or_false] at hact
      rcases hact with rfl | rfl
      · exact done .one
      · exact done .two

/-- The allowed load computed without status values is 0 (R149). -/
theorem Evaluating.recomputeAllowed (pr : Priority) : Evaluating b (recomputeAllowed pr s) ∧
    (Machine.recomputeAllowed pr s).dispatch = { s.dispatch with allowed := 0 } ∧
      HoldsKept s (Machine.recomputeAllowed pr s) := by
  have ho := lessLoad_recomputeAllowed pr s
  have hd := dispatch_recomputeAllowed pr s
  rw [h.allowedNow hb] at hd
  have feed : (Machine.recomputeAllowed pr s).feed = s.feed := congrArg (fun u => u.feed) ho
  refine ⟨⟨(lessPlant_of_load ho).trans h.plant, (congrArg (fun u => u.runback) ho).trans h.runback, ?_, fun l => ?_⟩, hd,
    holdsKept_of_feed feed⟩
  · rw [hd]
    exact h.dispatch
  · exact (congrArg (fun f => (PerLine.get f l).lessDerived) feed).trans (h.feed l)

/-- The dispatch unit's re-evaluation (R158). -/
theorem Evaluating.dispatchRestarted : Evaluating b (dispatchRestarted s) ∧
    ((Machine.dispatchRestarted s).dispatch.sink = .none ∧ (Machine.dispatchRestarted s).dispatch.allowed = 0) ∧
      HoldsKept s (Machine.dispatchRestarted s) := by
  have started : Evaluating b (s.modDispatch fun d =>
    { d with steamLoad := s.contribution .one + s.contribution .two, online := s.turbineOnline }) :=
      h.modDispatch fun _ => rfl
  obtain ⟨derived, hsink, hk⟩ := started.deriveSink hb
  obtain ⟨done, hd, hk'⟩ := derived.recomputeAllowed hb .urgent
  exact ⟨done, ⟨(congrArg DispatchUnit.sink hd).trans hsink, congrArg DispatchUnit.allowed hd⟩, hk.trans hk'⟩

/-- The three jobs' re-evaluations, in whatever order (R62, R158). -/
theorem Evaluating.jobs :
    let t := inAnyOrder [Machine.dispatchRestarted, Machine.evalFurnace .one, Machine.evalFurnace .two] s
    Evaluating b t ∧ (t.dispatch.sink = .none ∧ t.dispatch.allowed = 0) ∧ ∀ l, t.Held l .furnaceCold := by
  have each {D : State → Prop} (hrest : ∀ s, Evaluating b s → D s → D (Machine.dispatchRestarted s))
      (hfurnace : ∀ l s, Evaluating b s → D s → D (Machine.evalFurnace l s)) :
      ∀ act ∈ [Machine.dispatchRestarted, Machine.evalFurnace .one, Machine.evalFurnace .two], ∀ s, Evaluating b s →
        D s → D (act s) := by
    intro act hact t ht hD
    simp only [List.mem_cons, List.not_mem_nil, or_false] at hact
    rcases hact with rfl | rfl | rfl
    · exact hrest t ht hD
    · exact hfurnace .one t ht hD
    · exact hfurnace .two t ht hD
  have ground : ∀ act ∈ [Machine.dispatchRestarted, Machine.evalFurnace .one, Machine.evalFurnace .two], ∀ s,
      Evaluating b s → Evaluating b (act s) := fun act hact t ht =>
    each (D := Evaluating b) (fun _ hs _ => (hs.dispatchRestarted hb).1) (fun l _ hs _ => (hs.evalFurnace hb l).1) act hact t ht ht
  have choice {D : State → Prop} (hD : ∀ s n, D s → D (State.choose s n).2) :
      ∀ s n, Evaluating b s → D s → D (State.choose s n).2 := fun s n _ => hD s n
  refine ⟨inAnyOrder_invariant _ (fun _ n ht => ht.choose n) _ ground _ h, ?_, fun l => ?_⟩
  · refine inAnyOrder_establishes (fun _ n ht => ht.choose n) (choice fun t n hD => ?_) ground
      (each (D := fun t => t.dispatch.sink = .none ∧ t.dispatch.allowed = 0) ?_ ?_) List.mem_cons_self ?_ h
    · rwa [dispatch_choose]
    · exact fun _ hs _ => (hs.dispatchRestarted hb).2.1
    · intro l t ht hD
      rwa [(ht.evalFurnace hb l).2.1]
    · exact fun _ hs => (hs.dispatchRestarted hb).2.1
  · refine inAnyOrder_establishes (fun _ n ht => ht.choose n)
      (choice fun t n hD => holdsKept_of_feed (feed_choose t n) l _ hD) ground
      (each (D := fun t => t.Held l .furnaceCold) ?_ ?_) (act := Machine.evalFurnace l) ?_ ?_ h
    · exact fun _ hs hD => (hs.dispatchRestarted hb).2.2 l _ hD
    · exact fun l' _ hs hD => (hs.evalFurnace hb l').2.2.2 l _ hD
    · cases l <;> simp
    · exact fun _ hs => (hs.evalFurnace hb l).2.2.1

theorem held_removeHold {l : Line} {k k' : HoldCause} (hne : k' ≠ k) (l' : Line) (hk : s.Held l' k') :
    (removeHold l k s).Held l' k' := by
  cases hh : (s.feedOf l).holds.get k with
  | false => exact (removeHold_of_absent hh).symm ▸ hk
  | true =>
    rw [removeHold_of_empty (h.queue hb l) k hh]
    exact (held_modFeed_set s l l' k k' false).trans ((if_neg fun hc => hne hc.2).trans hk)

/-- NO_SINK and NO_RAM by their conditions (R119). -/
theorem Evaluating.evalSinkAndRams (hs : s.dispatch.sink = .none) (l : Line) :
    Evaluating b (evalSinkAndRams l s) ∧ (Machine.evalSinkAndRams l s).dispatch = s.dispatch ∧
      (Machine.evalSinkAndRams l s).Held l .noSink ∧
        ∀ l' k, k ≠ .noRam → s.Held l' k → (Machine.evalSinkAndRams l s).Held l' k := by
  have added := h.addHold hb l (k := .noSink) rfl
  obtain ⟨held, kept⟩ := held_addHold l .noSink s
  have disp : (Machine.addHold l .noSink s).dispatch = s.dispatch :=
    congrArg (fun u => u.dispatch) (lessFeed_addHold l .noSink s)
  have settled {t : State} (he : Evaluating b t) (hd : t.dispatch = (Machine.addHold l .noSink s).dispatch)
      (hk : ∀ l' k, k ≠ .noRam → (Machine.addHold l .noSink s).Held l' k → t.Held l' k) :
      Evaluating b t ∧ t.dispatch = s.dispatch ∧ t.Held l .noSink ∧ ∀ l' k, k ≠ .noRam → s.Held l' k → t.Held l' k :=
    ⟨he, hd.trans disp, hk l .noSink (fun hn => nomatch hn) held, fun l' k hn hs => hk l' k hn (kept l' k hs)⟩
  unfold Machine.evalSinkAndRams
  rw [if_pos hs]
  unfold evalNoRam
  split
  · exact settled (added.removeHold hb l rfl) (congrArg (fun u => u.dispatch) (lessFeed_removeHold l .noRam _))
      fun l' k hn => held_removeHold hb added hn l'
  · exact settled (added.addHold hb l rfl) (congrArg (fun u => u.dispatch) (lessFeed_addHold l .noRam _))
      fun l' k _ => (held_addHold l .noRam _).2 l' k

end

end Sys2Proof.Machine
end

section
/-! SUPPORT. The triggers, the scrub and EMISSION at a SOFT reset (R77, R119, R172, R173). -/

namespace Sys2Proof.Machine

/-! ### Triggers (R162) -/

theorem condition_of_arising {c : Condition} {s : State} (h : s.runback.holds c = false) :
    condition c true s = trigger (s.modRunback fun r => r.setCondition c true) := by
  unfold condition
  rw [if_neg (by simp [h])]
  rfl

/-- With the turbine off ONLINE and the allowed load 0, a posted cap is noted without more (R149). -/
theorem capTaken_of_offline {s : State} (ho : s.turbineOnline = false) (ha : s.dispatch.allowed = 0) :
    capTaken s = s.modDispatch fun d => { d with cap := s.runback.cap } := by
  unfold capTaken
  split
  · rename_i he
    rw [← he]
    rfl
  · refine recomputeAllowed_of_same ?_
    exact (if_neg (Bool.eq_false_iff.mp ho)).trans ha.symm

/-- An envelope at its floor. -/
def Runback.atFloor (r : Runback) : Runback :=
  { r with envelope := .active, cap := some (r.floor * 60), holdRunning := false }

/-- A runback unit at its floor, with a line trip holding. -/
def Runback.triggered (r : Runback) (l : Line) : Runback := (r.setCondition (.lineTrip l) true).atFloor

/-- A trigger that finds the envelope IDLE and the allowed load 0 caps at the floor. -/
theorem trigger_of_idle {s : State} (he : s.runback.envelope = .idle) (hc : s.dispatch.cap = s.runback.cap)
    (ha : s.dispatch.allowed = 0) : trigger s = s.modRunback Runback.atFloor := by
  unfold trigger
  rw [capTaken_of_kept hc]
  dsimp only
  rw [he, ha]
  dsimp only
  rw [Nat.zero_mul, Nat.zero_sub, show ∀ a : Nat, Nat.max a 0 = a from fun a => Nat.max_eq_left (Nat.zero_le a)]
  rfl

/-- A trigger that finds the cap at the floor leaves it there. -/
theorem trigger_of_atFloor {s : State} (he : s.runback.envelope = .active)
    (hc : s.runback.cap = some (s.runback.floor * 60)) (ho : s.turbineOnline = false) (ha : s.dispatch.allowed = 0) :
    trigger s = (s.modDispatch fun d => { d with cap := some (s.runback.floor * 60) }).modRunback Runback.atFloor := by
  unfold trigger
  rw [capTaken_of_offline ho ha, hc]
  have hr : (s.modDispatch fun d => { d with cap := some (s.runback.floor * 60) }).runback = s.runback := rfl
  dsimp only
  rw [hr, he, hc]
  dsimp only
  rw [show ∀ a b : Nat, Nat.max a (a - b) = a from fun a b => Nat.max_eq_left (Nat.sub_le a b)]
  rfl

/-- The two triggers of a SOFT reset: LINE_TRIP_1 and _2 hold, the envelope is ACTIVE at its floor (R173). -/
theorem conditions_restarted {s : State} (hd : s.dispatch.cap = none) (ha : s.dispatch.allowed = 0)
    (ho : s.turbineOnline = false) (hl : s.runback.lineTrip = ⟨false, false⟩) (he : s.runback.envelope = .idle)
    (hc : s.runback.cap = none) :
    ∃ r : Runback, capTaken (condition (.lineTrip .two) true (condition (.lineTrip .one) true s)) = { s with
        runback := r, dispatch := { s.dispatch with cap := some (s.runback.floor * 60) } } ∧
      r.envelope = .active ∧ r.cap = some (s.runback.floor * 60) := by
  have first : condition (.lineTrip .one) true s = { s with runback := s.runback.triggered .one } := by
    rw [condition_of_arising (c := .lineTrip .one) (congrArg PerLine.one hl)]
    exact trigger_of_idle he (hd.trans hc.symm) ha
  have second : condition (.lineTrip .two) true { s with runback := s.runback.triggered .one } = { s with
      runback := (s.runback.triggered .one).triggered .two
      dispatch := { s.dispatch with cap := some (s.runback.floor * 60) } } :=
    (condition_of_arising (s := { s with runback := s.runback.triggered .one }) (c := .lineTrip .two)
      (congrArg PerLine.two hl)).trans (trigger_of_atFloor (s := { s with
        runback := (s.runback.triggered .one).setCondition (.lineTrip .two) true }) rfl rfl ho ha)
  refine ⟨(s.runback.triggered .one).triggered .two, ?_, rfl, rfl⟩
  rw [first, second]
  exact capTaken_of_kept rfl

/-! ### EMISSION (R113, R118, R119) -/

/-- A feed admission unit with EMISSION held for the minutes used. -/
def Feed.budgeted (f : Feed) : Feed :=
  { f with reasons := f.reasons.add .budget, holds := f.holds.set .emission true }

/-- EMISSION is held where the minutes are used up, and its cause set; nothing else changes. -/
theorem postBudget_eq {l : Line} {s : State} (he : (s.feedOf l).engine = .ready)
    (hr : (s.feedOf l).reasons = ReasonSet.empty) (hh : (s.feedOf l).holds.emission = false) :
    postBudget l s = if s.spent l then setCause (Cause.feedHoldEmission l) (some l) 2 (s.modFeed l Feed.budgeted)
      else s := by
  have emp : (s.feedOf l).reasons.isEmpty = true := hr ▸ rfl
  have added : addHold l .emission (s.modFeed l fun f => { f with reasons := f.reasons.add .budget }) =
      s.modFeed l Feed.budgeted := by
    rw [addHold_of_idle (by rw [State.feedOf_modFeed_self]; exact he) .emission
      (by rw [State.feedOf_modFeed_self]; exact hh)]
    cases l <;> rfl
  unfold postBudget State.spent
  by_cases h : s.lineLimit l .budget ≤ ((s.averagerOf l).minutes : Int)
  · rw [if_pos h, if_pos (decide_eq_true h)]
    unfold postReason
    dsimp only
    rw [if_pos emp, added, State.feedOf_modFeed_self]
    have hb : ((s.feedOf l).budgeted).reasons.byte = 2 := by
      unfold Feed.budgeted
      rw [hr]
      rfl
    rw [hb]
  · rw [if_neg h, if_neg (by simp [h])]

/-! ### The trips and the scrub (R77, R172) -/

/-- A cause is set with a held event. -/
def State.HasSet (s : State) (c : Cause) (e : HeldEvent) : Prop := (s.cause c).status = true ∧ (s.cause c).held = some e

theorem hasSet_setCause {s : State} (hl : s.attention.causes.length = 15) (c : Cause) (l : Option Line) (d : Nat) :
    (setCause c l d s).HasSet c ⟨l, s.plantTime, d⟩ := by
  unfold State.HasSet
  rw [show (setCause c l d s).cause c = _ from State.cause_modCause_self c _ hl]
  exact ⟨rfl, rfl⟩

theorem causes_setCause (c : Cause) (l : Option Line) (d : Nat) (s : State) :
    (setCause c l d s).attention.causes.length = s.attention.causes.length := List.length_set ..

theorem cause_setCause_ne {c c' : Cause} (h : c' ≠ c) (l : Option Line) (d : Nat) (s : State) :
    (setCause c l d s).cause c' = s.cause c' := s.cause_modCause_ne _ h

theorem State.HasSet.setCause_ne {s : State} {c c' : Cause} {e : HeldEvent} (h : s.HasSet c e) (hc : c ≠ c') (l : Option Line)
    (d : Nat) : (setCause c' l d s).HasSet c e := by
  unfold State.HasSet
  rw [cause_setCause_ne hc]
  exact h

/-- What the trips with RESTART and the scrub leave of a base state whose trip units have RESTART alone. -/
structure Scrubbed (b s : State) : Prop where
  trip : s.trip = ⟨⟨⟨true, b.mismatched, false, false⟩, 0⟩, ⟨⟨true, b.mismatched, false, false⟩, 0⟩⟩
  feed : s.feed = b.feed
  dispatch : s.dispatch = b.dispatch
  runback : s.runback = b.runback
  length : s.attention.causes.length = b.attention.causes.length
  trips : b.attention.causes.length = 15 → ∀ l,
    s.HasSet (Cause.trip l) ⟨some l, b.plantTime, if b.mismatched then 3 else 1⟩
  fault : b.attention.causes.length = 15 → b.mismatched = true → (s.cause .limitFault).status = true
  others : ∀ c, c ∉ [Cause.tripOne, .tripTwo, .limitFault] → s.cause c = b.cause c
  sound : b.mismatched = false → s.cause .limitFault = b.cause .limitFault

/-- TRIP_1 and TRIP_2 set with RESTART. -/
def restartTripped (s : State) : State := setCause .tripTwo (some .two) 1 (setCause .tripOne (some .one) 1 s)

/-- INTEGRITY recorded at both trip units, whose sets have RESTART, and LIMIT_FAULT set. -/
def integrityRecorded (s : State) : State :=
  setCause .limitFault none 0 (setCause .tripTwo (some .two) 3 (State.modTrip (setCause .tripOne (some .one) 3
    (s.modTrip .one fun t => { t with causes := t.causes.set .integrity true })) .two
      fun t => { t with causes := t.causes.set .integrity true }))

theorem recordTrip_of_absent {l : Line} {c : TripCause} {s : State} (h : (s.tripOf l).causes.get c = false) :
    recordTrip l c s = setCause (Cause.trip l) (some l) ((s.tripOf l).causes.set c true).byte
      (s.modTrip l fun t => { t with causes := t.causes.set c true }) := by
  unfold recordTrip
  rw [if_neg (by simp [h])]
  dsimp only
  rw [State.tripOf_modTrip, if_pos rfl]

/-- A scrub that finds a mismatch where both lines are tripped records INTEGRITY without a post (R74, R167). -/
theorem scrub_restartTripped {s : State} (ht : s.trip = ⟨TripUnit.initial, TripUnit.initial⟩)
    (h : crc s.limits.codeBytes ≠ s.limits.checkCode) :
    scrub (restartTripped s) = integrityRecorded (restartTripped s) := by
  have posts (l : Line) : (restartTripped s).postsIfEmpty l = [] := by
    have : ((restartTripped s).tripOf l).causes = ⟨true, false, false, false⟩ := by
      show (s.trip.get l).causes = _
      rw [ht]
      cases l <;> rfl
    unfold State.postsIfEmpty
    rw [this]
    rfl
  have one := recordTrip_of_absent (s := restartTripped s) (l := .one) (c := .integrity)
    (congrArg (fun x => x.one.causes.integrity) ht)
  have byteOne : (((restartTripped s).tripOf .one).causes.set .integrity true).byte = 3 :=
    congrArg (fun x => (x.one.causes.set .integrity true).byte) ht
  rw [byteOne] at one
  have two := recordTrip_of_absent (s := setCause .tripOne (some .one) 3
    ((restartTripped s).modTrip .one fun t => { t with causes := t.causes.set .integrity true })) (l := .two)
    (c := .integrity) (congrArg (fun x => x.two.causes.integrity) ht)
  have byteTwo : (((setCause .tripOne (some .one) 3
    ((restartTripped s).modTrip .one fun t => { t with causes := t.causes.set .integrity true })).tripOf .two).causes.set
      .integrity true).byte = 3 :=
    congrArg (fun x => (x.two.causes.set .integrity true).byte) ht
  rw [byteTwo] at two
  unfold scrub
  rw [show (restartTripped s).computedCode = crc s.limits.codeBytes from rfl,
    show (restartTripped s).limits.checkCode = s.limits.checkCode from rfl, if_neg h, posts, posts, one]
  exact congrArg (setCause .limitFault none 0) two

theorem restartScrubbed_eq {s : State} (ht : s.trip = ⟨TripUnit.initial, TripUnit.initial⟩) :
    restartScrubbed s = if s.mismatched then integrityRecorded (restartTripped s) else restartTripped s := by
  have hb (l : Line) : (s.tripOf l).causes.byte = 1 := by
    unfold State.tripOf
    rw [ht]
    cases l <;> rfl
  have tripped : restartScrubbed s = resetScrub (restartTripped s) := by
    unfold restartScrubbed
    rw [hb, hb]
    rfl
  rw [tripped]
  have hm : (restartTripped s).limits.mode = s.limits.mode := rfl
  unfold resetScrub State.mismatched
  rw [hm]
  cases s.limits.mode with
  | commission => rw [if_neg (by simp)]
  | operate =>
    by_cases h : crc s.limits.codeBytes = s.limits.checkCode
    · rw [if_neg (by simp [h])]
      exact if_pos h
    · rw [if_pos (by simp [h])]
      exact scrub_restartTripped ht h

theorem tripOne_ne_tripTwo : Cause.tripOne ≠ .tripTwo := by decide

theorem hasSet_restartTripped {s : State} (hl : s.attention.causes.length = 15) (l : Line) :
    (restartTripped s).HasSet (Cause.trip l) ⟨some l, s.plantTime, 1⟩ := by
  cases l with
  | one => exact (hasSet_setCause hl .tripOne (some .one) 1).setCause_ne tripOne_ne_tripTwo _ _
  | two => exact hasSet_setCause ((causes_setCause ..).trans hl) .tripTwo (some .two) 1

theorem hasSet_integrityRecorded {s : State} (hl : s.attention.causes.length = 15) :
    (integrityRecorded s).HasSet .limitFault ⟨none, s.plantTime, 0⟩ ∧
      ∀ l, (integrityRecorded s).HasSet (Cause.trip l) ⟨some l, s.plantTime, 3⟩ := by
  have hone : (setCause .tripOne (some .one) 3 s).attention.causes.length = 15 := (causes_setCause ..).trans hl
  have htwo : (setCause .tripTwo (some .two) 3 (setCause .tripOne (some .one) 3 s)).attention.causes.length = 15 :=
    (causes_setCause ..).trans hone
  refine ⟨hasSet_setCause htwo .limitFault none 0, fun l => ?_⟩
  cases l with
  | one =>
    exact ((hasSet_setCause hl .tripOne (some .one) 3).setCause_ne tripOne_ne_tripTwo (some .two) 3).setCause_ne
      (by decide) _ _
  | two => exact (hasSet_setCause hone .tripTwo (some .two) 3).setCause_ne (by decide) _ _

theorem cause_restartTripped {s : State} {c : Cause} (h1 : c ≠ .tripOne) (h2 : c ≠ .tripTwo) :
    (restartTripped s).cause c = s.cause c :=
  (cause_setCause_ne h2 _ _ _).trans (cause_setCause_ne h1 _ _ _)

theorem cause_modTrip (s : State) (l : Line) (g : TripUnit → TripUnit) (c : Cause) : (s.modTrip l g).cause c = s.cause c :=
  rfl

theorem cause_integrityRecorded {s : State} {c : Cause} (h1 : c ≠ .tripOne) (h2 : c ≠ .tripTwo) (h3 : c ≠ .limitFault) :
    (integrityRecorded s).cause c = s.cause c := by
  unfold integrityRecorded
  rw [cause_setCause_ne h3, cause_setCause_ne h2, cause_modTrip, cause_setCause_ne h1, cause_modTrip]

/-- The trip units with INTEGRITY in a line's set. -/
def integrityTrip (x : PerLine TripUnit) (l : Line) : PerLine TripUnit :=
  x.set l { x.get l with causes := (x.get l).causes.set .integrity true }

theorem trip_integrityRecorded (s : State) :
    (integrityRecorded s).trip = integrityTrip (integrityTrip s.trip .one) .two := rfl

theorem causes_integrityRecorded (s : State) :
    (integrityRecorded s).attention.causes.length = s.attention.causes.length :=
  (causes_setCause ..).trans ((causes_setCause ..).trans (causes_setCause ..))

theorem scrubbed_restartScrubbed {s : State} (ht : s.trip = ⟨TripUnit.initial, TripUnit.initial⟩) :
    Scrubbed s (restartScrubbed s) := by
  rw [restartScrubbed_eq ht]
  cases hm : s.mismatched with
  | false =>
    rw [if_neg Bool.false_ne_true]
    refine ⟨?_, rfl, rfl, rfl, (causes_setCause ..).trans (causes_setCause ..), fun hl l => ?_, fun _ h => ?_, fun c hc => ?_, fun _ => ?_⟩
    · rw [hm]
      exact ht
    · rw [hm]
      exact hasSet_restartTripped hl l
    · rw [hm] at h
      cases h
    · simp only [List.mem_cons, List.not_mem_nil, or_false, not_or] at hc
      exact cause_restartTripped hc.1 hc.2.1
    · exact cause_restartTripped (by decide) (by decide)
  | true =>
    have hl' (h : s.attention.causes.length = 15) : (restartTripped s).attention.causes.length = 15 :=
      ((causes_setCause ..).trans (causes_setCause ..)).trans h
    rw [if_pos rfl]
    refine ⟨?_, by simp [integrityRecorded, restartTripped, setCause], by simp [integrityRecorded, restartTripped, setCause],
      by simp [integrityRecorded, restartTripped, setCause], ?_, fun hl l => ?_, fun hl _ => ?_, fun c hc => ?_, fun h => ?_⟩
    · rw [hm, trip_integrityRecorded, show (restartTripped s).trip = s.trip from rfl, ht]
      rfl
    · exact (causes_integrityRecorded _).trans ((causes_setCause ..).trans (causes_setCause ..))
    · rw [hm]
      exact (hasSet_integrityRecorded (hl' hl)).2 l
    · exact (hasSet_integrityRecorded (hl' hl)).1.1
    · simp only [List.mem_cons, List.not_mem_nil, or_false, not_or] at hc
      exact (cause_integrityRecorded hc.1 hc.2.1 hc.2.2).trans (cause_restartTripped hc.1 hc.2.1)
    · rw [hm] at h
      cases h

end Sys2Proof.Machine
end

section
/-! SUPPORT. A SOFT reset as a whole: from every block at SOFT to the NOTICEs that follow it. -/

namespace Sys2Proof.Machine

/-! ### The evaluations -/

/-- What the evaluations of a SOFT reset leave of a base state. -/
structure Evaluated (b e : State) : Prop where
  feed : ∀ l, (e.feedOf l).lessDerived = (b.feedOf l).lessDerived
  held : ∀ l, e.Held l .furnaceCold ∧ e.Held l .noSink
  dispatch : e.dispatch.lessDerived = { b.dispatch.lessDerived with cap := some (b.runback.floor * 60) }
  load : e.dispatch.sink = .none ∧ e.dispatch.allowed = 0
  runback : e.runback.envelope = .active ∧ e.runback.cap = some (b.runback.floor * 60)

theorem evaluated_restartEvaluated {b : State} (hb : AtSoft b) (hd : b.dispatch.cap = none)
    (hl : b.runback.lineTrip = ⟨false, false⟩) (he : b.runback.envelope = .idle) (hc : b.runback.cap = none) :
    Evaluated b (restartEvaluated b) := by
  obtain ⟨jobs, ⟨sink, allowed⟩, cold⟩ := (evaluating_refl b).jobs hb
  unfold restartEvaluated
  generalize inAnyOrder [dispatchRestarted, evalFurnace .one, evalFurnace .two] b = j at jobs sink allowed cold
  obtain ⟨one, done, heldOne, keptOne⟩ := jobs.evalSinkAndRams hb sink .one
  obtain ⟨two, dtwo, heldTwo, keptTwo⟩ := one.evalSinkAndRams hb (done ▸ sink) .two
  dsimp only
  generalize evalSinkAndRams .two (evalSinkAndRams .one j) = k at two dtwo heldTwo keptTwo
  have disp : k.dispatch = j.dispatch := dtwo.trans done
  obtain ⟨r, hr, henv, hcap⟩ := conditions_restarted (s := k)
    ((congrArg DispatchUnit.cap two.dispatch).trans hd) (disp ▸ allowed) (two.turbineOnline hb)
    ((congrArg Runback.lineTrip two.runback).trans hl) ((congrArg Runback.envelope two.runback).trans he)
    ((congrArg Runback.cap two.runback).trans hc)
  rw [hr]
  have hfloor : k.runback.floor = b.runback.floor := congrArg Runback.floor two.runback
  rw [hfloor] at hcap ⊢
  refine ⟨two.feed, fun l => ⟨?_, ?_⟩, ?_, ⟨?_, ?_⟩, henv, hcap⟩
  · exact keptTwo l .furnaceCold (by decide) (keptOne l .furnaceCold (by decide) (cold l))
  · cases l with
    | one => exact keptTwo .one .noSink (by decide) heldOne
    | two => exact heldTwo
  · exact congrArg (fun d => { d with cap := some (b.runback.floor * 60) }) two.dispatch
  · exact (congrArg DispatchUnit.sink disp).trans sink
  · exact (congrArg DispatchUnit.allowed disp).trans allowed

/-! ### EMISSION -/

/-- What posting BUDGET leaves of a state whose line holds no EMISSION. -/
structure Budgeted (l : Line) (s t : State) : Prop where
  rest : t.lessFeed = s.lessFeed
  feed : ∀ l', t.feedOf l' = if l' = l ∧ s.spent l = true then (s.feedOf l).budgeted else s.feedOf l'
  cause : ∀ c, c ≠ Cause.feedHoldEmission l → t.cause c = s.cause c
  status : s.attention.causes.length = 15 → (s.cause (Cause.feedHoldEmission l)).status = false →
    (t.cause (Cause.feedHoldEmission l)).status = s.spent l
  length : t.attention.causes.length = s.attention.causes.length

theorem budgeted_postBudget {l : Line} {s : State} (he : (s.feedOf l).engine = .ready)
    (hr : (s.feedOf l).reasons = ReasonSet.empty) (hh : (s.feedOf l).holds.emission = false) :
    Budgeted l s (postBudget l s) := by
  have rest := lessFeed_postBudget l s
  rw [postBudget_eq he hr hh] at rest ⊢
  cases hs : s.spent l with
  | false =>
    rw [if_neg Bool.false_ne_true]
    exact ⟨rfl, fun l' => (if_neg fun h => Bool.false_ne_true (hs ▸ h.2)).symm, fun _ _ => rfl, fun _ hf => hf.trans hs.symm,
      rfl⟩
  | true =>
    rw [hs] at rest
    rw [if_pos rfl] at rest ⊢
    refine ⟨rest, fun l' => ?_, fun c hc => cause_setCause_ne hc _ _ _, fun hl _ => ?_, causes_setCause ..⟩
    · refine (State.feedOf_modFeed (s := s) l l' Feed.budgeted).trans ?_
      simp [hs]
    · rw [hs]
      exact (hasSet_setCause (s := s.modFeed l Feed.budgeted) hl _ _ _).1

/-- What both lines' EMISSION at a SOFT reset leaves. -/
theorem budgeted_both {b e : State} (hb : AtSoft b) (he : Evaluated b e) :
    let p := postBudget .two (postBudget .one e)
    p.lessFeed = e.lessFeed ∧
      (∀ l, p.feedOf l = if e.spent l = true then (e.feedOf l).budgeted else e.feedOf l) ∧
      (∀ c, c ≠ .feedHoldEmissionOne → c ≠ .feedHoldEmissionTwo → p.cause c = e.cause c) ∧
      (e.attention.causes.length = 15 → (∀ l, (e.cause (Cause.feedHoldEmission l)).status = false) →
        ∀ l, (p.cause (Cause.feedHoldEmission l)).status = e.spent l) := by
  have engine (l : Line) : (e.feedOf l).engine = .ready := (congrArg Feed.engine (he.feed l)).trans (hb.engine l)
  have reasons (l : Line) : (e.feedOf l).reasons = ReasonSet.empty :=
    (congrArg Feed.reasons (he.feed l)).trans (hb.reasons l)
  have emission (l : Line) : (e.feedOf l).holds.emission = false :=
    (congrArg (fun f => f.holds.emission) (he.feed l)).trans (hb.emission l)
  have one := budgeted_postBudget (engine .one) (reasons .one) (emission .one)
  have same : (postBudget .one e).feedOf .two = e.feedOf .two := (one.feed .two).trans (if_neg fun h => nomatch h.1)
  have two := budgeted_postBudget (same ▸ engine .two) (same ▸ reasons .two) (same ▸ emission .two)
  have spent : (postBudget .one e).spent .two = e.spent .two :=
    read_of_erased State.lessFeed (read := fun s => s.spent .two) (fun _ => rfl) one.rest
  generalize postBudget .one e = m at one same two spent
  intro p
  generalize hp : postBudget .two m = q at two
  have hpq : p = q := hp
  rw [hpq]
  refine ⟨two.rest.trans one.rest, fun l => ?_, fun c h1 h2 => (two.cause c h2).trans (one.cause c h1),
    fun hl hf l => ?_⟩
  · cases l with
    | one =>
      refine (two.feed .one).trans ((if_neg fun h => nomatch h.1).trans ((one.feed .one).trans ?_))
      simp
    | two =>
      refine (two.feed .two).trans ?_
      rw [spent, same]
      simp
  · cases l with
    | one => exact (congrArg CauseRecord.status (two.cause _ (by decide))).trans (one.status hl (hf .one))
    | two =>
      refine (two.status (one.length.trans hl) ?_).trans spent
      exact (congrArg CauseRecord.status (one.cause _ (by decide))).trans (hf .two)

end Sys2Proof.Machine
end

section
/-! SUPPORT. What RESTART leaves, from the state it finds (R39, R62, R119, R158, R172, R173, R184). -/

namespace Sys2Proof.Machine

theorem channel_softBase {u : State} {i : Nat} {c : Channel} (h : (softBase u).channel i = some c) : c.own = none := by
  have hm : (softBase u).channel i = (u.channels.getD i none).map Channel.soft :=
    List.getD_map _ (none : Option Channel) (Option.map Channel.soft)
  rw [hm] at h
  obtain ⟨c', -, rfl⟩ := Option.map_eq_some_iff.mp h
  rfl

theorem scrubbed_softBase (u : State) : Scrubbed (softBase u) (restartScrubbed (softBase u)) :=
  scrubbed_restartScrubbed rfl

theorem feedOf_restartScrubbed (u : State) (l : Line) :
    (restartScrubbed (softBase u)).feedOf l = (u.feedOf l).soft := by
  rw [State.feedOf, (scrubbed_softBase u).feed]
  cases l <;> rfl

theorem atSoft_restartScrubbed (u : State) : AtSoft (restartScrubbed (softBase u)) where
  values i c h := by
    have plant := (calm_lessPlant (softBase u)).restartScrubbed rfl
    have hch : (restartScrubbed (softBase u)).channels = (softBase u).channels := congrArg (fun s => s.channels) plant
    unfold State.channel at h
    rw [hch] at h
    exact channel_softBase h
  queue l := congrArg Feed.queue (feedOf_restartScrubbed u l)
  engine l := congrArg Feed.engine (feedOf_restartScrubbed u l)
  reasons l := congrArg Feed.reasons (feedOf_restartScrubbed u l)
  emission l := congrArg (fun f => f.holds.emission) (feedOf_restartScrubbed u l)

theorem evaluated_softBase (u : State) :
    Evaluated (restartScrubbed (softBase u)) (restartEvaluated (restartScrubbed (softBase u))) := by
  have scrubbed := scrubbed_softBase u
  exact evaluated_restartEvaluated (atSoft_restartScrubbed u) (congrArg DispatchUnit.cap scrubbed.dispatch)
    (congrArg Runback.lineTrip scrubbed.runback) (congrArg Runback.envelope scrubbed.runback)
    (congrArg Runback.cap scrubbed.runback)

/-- What a SOFT reset's posts leave of the units that take part in them. -/
structure Restarted (u p : State) : Prop where
  trip : ∀ l, p.tripOf l = ⟨⟨true, u.mismatched, false, false⟩, 0⟩
  feed : ∀ l, (p.feedOf l).holds.tripped = true ∧ (p.feedOf l).holds.furnaceCold = true ∧
    (p.feedOf l).holds.noSink = true ∧ (p.feedOf l).holds.manual = false ∧ (p.feedOf l).queue = [] ∧
    (p.feedOf l).engine = .ready ∧ (p.feedOf l).bed = (u.feedOf l).bed
  emission : ∀ l, (p.feedOf l).holds.emission = u.spent l
  dispatch : p.dispatch.allowed = 0 ∧ p.dispatch.orders = [] ∧ p.dispatch.gateway = u.dispatch.gateway ∧
    p.dispatch.follow = u.dispatch.follow ∧ p.dispatch.sink = .none
  runback : p.runback.envelope = .active ∧ p.runback.cap = some (u.runback.floor * 60)
  causes : u.attention.causes.length = 15 →
    (∀ l, p.HasSet (Cause.trip l) ⟨some l, u.plantTime, (p.tripOf l).causes.byte⟩ ∧
      (p.cause (Cause.feedHoldEmission l)).status = u.spent l) ∧
    (p.cause .limitFault).status = u.mismatched

theorem restarted_restartPosts (u : State) : Restarted u (restartPosts (softBase u)) := by
  have scrubbed := scrubbed_softBase u
  have ev := evaluated_softBase u
  have base := atSoft_restartScrubbed u
  have same := (plain_sameTrips (restartScrubbed (softBase u))).restartEvaluated ⟨rfl, rfl, fun _ _ => rfl⟩
  have plant := (calm_lessPlant (softBase u)).restartEvaluated ((calm_lessPlant (softBase u)).restartScrubbed rfl)
  have spent (l : Line) : (restartEvaluated (restartScrubbed (softBase u))).spent l = u.spent l := by
    have : (restartEvaluated (restartScrubbed (softBase u))).spent l = (softBase u).spent l :=
      read_of_erased State.lessPlant (read := fun s => s.spent l) (fun _ => rfl) plant
    rw [this]
    cases l <;> rfl
  obtain ⟨rest, feed, causes, status⟩ := budgeted_both base ev
  unfold restartPosts
  generalize restartScrubbed (softBase u) = s at *
  generalize restartEvaluated s = e at *
  generalize postBudget .two (postBudget .one e) = p at *
  have lessFeed {β : Type} (read : State → β) (hr : ∀ s, read s.lessFeed = read s) : read p = read e :=
    read_of_erased State.lessFeed hr rest
  have hm : (softBase u).mismatched = u.mismatched := rfl
  have trip (l : Line) : p.tripOf l = ⟨⟨true, u.mismatched, false, false⟩, 0⟩ := by
    rw [lessFeed (fun s => s.tripOf l) fun _ => rfl, State.tripOf, same.trip, scrubbed.trip, hm]
    cases l <;> rfl
  have derived (l : Line) : (e.feedOf l).lessDerived = (u.feedOf l).soft.lessDerived := by
    rw [ev.feed l, State.feedOf, scrubbed.feed]
    cases l <;> rfl
  have from_soft {β : Type} (l : Line) (read : Feed → β) (hr : ∀ f, read f.lessDerived = read f) :
      read (e.feedOf l) = read (u.feedOf l).soft :=
    (hr _).symm.trans ((congrArg read (derived l)).trans (hr _))
  have disp : e.dispatch.lessDerived = { u.dispatch.soft.lessDerived with cap := some (u.runback.floor * 60) } := by
    rw [ev.dispatch, scrubbed.dispatch, scrubbed.runback]
    rfl
  have length : s.attention.causes.length = u.attention.causes.length := scrubbed.length.trans (List.length_map ..)
  refine ⟨trip, fun l => ?_, fun l => ?_, ?_, ?_, fun hl => ⟨fun l => ⟨?_, ?_⟩, ?_⟩⟩
  · have evaluated : (e.feedOf l).holds.tripped = true ∧ (e.feedOf l).holds.furnaceCold = true ∧
        (e.feedOf l).holds.noSink = true ∧ (e.feedOf l).holds.manual = false ∧ (e.feedOf l).queue = [] ∧
        (e.feedOf l).engine = .ready ∧ (e.feedOf l).bed = (u.feedOf l).bed :=
      ⟨from_soft l (fun f => f.holds.tripped) fun _ => rfl, (ev.held l).1, (ev.held l).2,
        from_soft l (fun f => f.holds.manual) fun _ => rfl, from_soft l Feed.queue fun _ => rfl,
        from_soft l Feed.engine fun _ => rfl, from_soft l Feed.bed fun _ => rfl⟩
    rw [feed l]
    split
    · exact evaluated
    · exact evaluated
  · rw [feed l, spent l]
    split
    · rename_i h
      exact h.symm
    · rename_i h
      exact (from_soft l (fun f => f.holds.emission) fun _ => rfl).trans (Bool.eq_false_iff.mpr h).symm
  · rw [lessFeed State.dispatch fun _ => rfl]
    exact ⟨ev.load.2, congrArg (fun d => d.orders) disp, congrArg (fun d => d.gateway) disp,
      congrArg (fun d => d.follow) disp, ev.load.1⟩
  · rw [lessFeed State.runback fun _ => rfl]
    refine ⟨ev.runback.1, ev.runback.2.trans ?_⟩
    rw [scrubbed.runback]
    rfl
  · have set := scrubbed.trips ((List.length_map ..).trans hl) l
    have hbyte : (p.tripOf l).causes.byte = if u.mismatched then 3 else 1 := by
      rw [trip l]
      cases u.mismatched <;> rfl
    have hc : p.cause (Cause.trip l) = s.cause (Cause.trip l) :=
      (causes _ (by cases l <;> decide) (by cases l <;> decide)).trans (same.cause _ (by cases l <;> decide))
    rw [hbyte]
    unfold State.HasSet at set ⊢
    rw [hc]
    exact set
  · rw [status ((same.length.trans length).trans hl) (fun l => ?_) l, spent l]
    rw [same.cause _ (by cases l <;> decide), scrubbed.others _ (by cases l <;> decide), cause_softBase]
  · rw [causes _ (by decide) (by decide), same.cause _ (by decide)]
    cases hb : u.mismatched with
    | true => exact scrubbed.fault ((List.length_map ..).trans hl) hb
    | false =>
      rw [scrubbed.sound hb, cause_softBase]

end Sys2Proof.Machine
end

section
/-! SUPPORT. RESTART's NOTICEs and REPLY (R180, R184, R187, R192). -/

namespace Sys2Proof.Machine

/-- The NOTICEs of an event leave what is set and held, ORIGIN_LOSS apart. -/
theorem noticesSince_keeps {β : Type} (b s : State) {c : Cause} (hc : c ≠ .originLoss) (read : CauseRecord → β)
    (h : ∀ r : CauseRecord, read { r with noticed := true } = read r) :
    read ((noticesSince b s).cause c) = read (s.cause c) :=
  inTurn_holds (P := fun t => read (t.cause c) = read (s.cause c))
    (fun c' t ht => (noticeOccasion_keeps c' c t hc read h).trans ht) rfl

/-- What a SOFT reset leaves of the units, its NOTICEs leave. -/
theorem Restarted.noticed {u p v : State} (h : Restarted u p) (hr : v.lessNotices = p.lessNotices)
    (hs : ∀ c, c ≠ .originLoss → (v.cause c).status = (p.cause c).status)
    (hh : ∀ c, c ≠ .originLoss → (v.cause c).held = (p.cause c).held) : Restarted u v := by
  have trip (l : Line) : v.tripOf l = p.tripOf l := congrArg (fun s => s.trip.get l) hr
  have feed (l : Line) : v.feedOf l = p.feedOf l := congrArg (fun s => s.feed.get l) hr
  have disp : v.dispatch = p.dispatch := congrArg (fun s => s.dispatch) hr
  have runback : v.runback = p.runback := congrArg (fun s => s.runback) hr
  refine ⟨fun l => (trip l).trans (h.trip l), fun l => feed l ▸ h.feed l, fun l => feed l ▸ h.emission l,
    disp ▸ h.dispatch, runback ▸ h.runback, fun hl => ?_⟩
  obtain ⟨lines, fault⟩ := h.causes hl
  refine ⟨fun l => ⟨?_, ?_⟩, (hs _ (by decide)).trans fault⟩
  · obtain ⟨status, held⟩ := (lines l).1
    have hne : Cause.trip l ≠ .originLoss := by cases l <;> decide
    exact ⟨(hs _ hne).trans status, (trip l).symm ▸ (hh _ hne).trans held⟩
  · exact (hs _ (by cases l <;> decide)).trans (lines l).2

/-- What RESTART leaves before its REPLY. -/
structure AfterRestart (u v : State) : Prop where
  plant : v.lessPlant = (softBase u).lessPlant
  actuators : SameActuators u v
  field : u.ports.field.soft.Originating (v.port .field)
  supervisor : ∃ urgent seq, v.port .supervisor = { u.ports.supervisor.soft with urgent := urgent, seq := seq } ∧
    (urgent = [] → seq = u.ports.supervisor.seq)
  units : Restarted u v
  station : v.attention.station = u.attention.station
  enable : ∀ c, (v.cause c).enable = (u.cause c).enable
  others : ∀ c, c ∉ urgentCauses → v.cause c = ⟨false, (u.cause c).enable, false, none⟩

theorem afterRestart_softReset {u : State} (hset : u.settled) : AfterRestart u (noticesSince u (softReset u)) := by
  have settled : softReset u = noticesSince (softBase u) (restartPosts (softBase u)) := by
    rw [softReset_eq, settleAll_of_settled hset]
  obtain ⟨⟨n, hn⟩, hr⟩ := noticed_softReset u u
  rw [settleAll_of_settled hset] at hn
  have keeps {β : Type} {c : Cause} (hc : c ≠ .originLoss) (read : CauseRecord → β)
      (h : ∀ r : CauseRecord, read { r with noticed := true } = read r) :
      read ((noticesSince u (softReset u)).cause c) = read ((restartPosts (softBase u)).cause c) := by
    rw [noticesSince_keeps u _ hc read h, settled, noticesSince_keeps _ _ hc read h]
  have posts := urgentOnly_restartPosts (softBase u)
  have plant := (calm_lessPlant (softBase u)).restartPosts rfl
  have actuators := (calm_sameActuators (softBase u)).restartPosts (sameActuators_refl _)
  have field := (calm_originating u.ports.field.soft).restartPosts (s := softBase u)
    ⟨rfl, rfl, rfl, rfl, rfl, fun _ _ => rfl⟩
  have units := (restarted_restartPosts u).noticed hn.rest (fun c hc => keeps hc CauseRecord.status fun _ => rfl)
    (fun c hc => keeps hc CauseRecord.held fun _ => rfl)
  have cause := cause_softBase u
  generalize noticesSince u (softReset u) = v at *
  generalize restartPosts (softBase u) = p at *
  refine ⟨(lessPlant_of_notices hn.rest).trans plant, ?_, hn.field.symm ▸ field, ?_, units,
    hn.station.trans posts.station, fun c => ?_, fun c hc => ?_⟩
  · have : v.actuators = p.actuators := congrArg (fun s => s.actuators) hn.rest
    unfold SameActuators
    rw [this]
    exact actuators
  · obtain ⟨urgent, routine, seq, hp, hseq, -, -⟩ := hn.supervisor
    rw [posts.supervisor] at hp hseq
    have hroutine : routine = [] := by
      have : (v.port .supervisor).routine = [] := hr
      rw [hp] at this
      exact this
    subst hroutine
    exact ⟨urgent, seq, hp, fun hu => hseq (by rw [hu]; rfl)⟩
  · rw [hn.enable c, posts.enable c, cause]
  · rw [hn.others c hc, posts.routine c (Nat.not_le.mp fun h => hc (mem_urgentCauses.mpr h)), cause]

theorem placeReply_noticed_answer (r : Request) (st : Status) (b u : State) :
    placeReply r ((answer st u).noticed b) = withReply r (noticesSince b u).requests st [] (noticesSince b u) := rfl

/-- RESTART with its confirm block resets and answers DONE. -/
theorem exec_restart {r : Request} {rest : List Request} {s : State} (h : Ready .restart r rest s) (hc : Confirms r s) :
    exec .restart s = .next (withReply r
      (noticesSince (s.beginExecution rest) (softReset (s.beginExecution rest))).requests .done []
      (noticesSince (s.beginExecution rest) (softReset (s.beginExecution rest)))) := by
  have hc' : Confirms r (s.beginExecution rest) := by
    unfold Confirms at hc ⊢
    exact hc
  have he : serve .restart (confirmed 0 restartBody) s = _ := serve_of_ready h _
  rw [confirmed_of_found (Nat.zero_le _) hc', restartBody, placeReply_noticed_answer] at he
  exact congrArg Host.Outcome.next he

end Sys2Proof.Machine
end

section
/-! The statement on RESTART. -/

namespace Sys2Proof.Machine

/-- Settles O7: every block at SOFT, the evaluations that post and originate, the NOTICEs and the REPLY. -/
theorem restartEffect : Obligations.RestartEffect := by
  intro r rest s hready hconf hset
  have after := afterRestart_softReset (u := s.beginExecution rest) hset
  refine ⟨_, exec_restart hready hconf, ?_⟩
  generalize noticesSince (s.beginExecution rest) (softReset (s.beginExecution rest)) = v at after
  obtain ⟨plant, actuators, field, ⟨urgent, seq, hsup, hseq⟩, units, station, enable, others⟩ := after
  have own : v.ownStation = s.ownStation := congrArg (fun x => x.ownStation) plant
  have avg : v.averager = (softBase (s.beginExecution rest)).averager := congrArg (fun x => x.averager) plant
  have sup : (withReply r v.requests .done [] v).port .supervisor = { v.port .supervisor with
      routine := (v.port .supervisor).routine ++ [⟨v.nextMark, replyTo r v.ownStation .done []⟩] } := rfl
  have answered : Answered r [] .done [] s.ownStation (withReply r v.requests .done [] v) := by
    refine ⟨congrArg (fun x => x.requests) plant, rfl, v.nextMark, [], ?_⟩
    rw [sup, hsup, own]
    rfl
  have ported (p : PortId) : let t := withReply r v.requests .done [] v
      (t.port p).linkUp = (s.port p).linkUp ∧ (t.port p).transmitting = none ∧ (t.port p).transit = [] ∧
        (t.port p).credit = 0 ∧ (t.port p).errors = (s.port p).errors := by
    cases p with
    | field => exact ⟨field.linkUp, field.transmitting, field.transit, field.credit, field.errors⟩
    | supervisor =>
      intro t
      rw [show t.port .supervisor = _ from sup, hsup]
      exact ⟨rfl, rfl, rfl, rfl, rfl⟩
  have lines (l : Line) : (v.averagerOf l).minutes = (s.averagerOf l).minutes ∧
      (v.averagerOf l).nextBoundary = (s.averagerOf l).nextBoundary ∧ (v.averagerOf l).saturation = ⟨0, 0, 0⟩ ∧
        ∀ p, v.pollutantOf l p = ⟨0, 0, [none, none, none], (s.pollutantOf l p).ring, 0, none, 0⟩ := by
    unfold State.averagerOf State.pollutantOf
    rw [avg]
    cases l with
    | one => exact ⟨rfl, rfl, rfl, get_mapPollutants PollutantState.soft s.averager.one.pollutants⟩
    | two => exact ⟨rfl, rfl, rfl, get_mapPollutants PollutantState.soft s.averager.two.pollutants⟩
  obtain ⟨allowed, orders, gateway, follow, sink⟩ := units.dispatch
  refine ⟨answered, congrArg (fun x => x.plantTime) plant, congrArg (fun x => x.matchTable) plant, congrArg (fun x => x.points) plant,
    congrArg (fun x => x.plantBinding) plant, congrArg (fun x => x.lineBinding) plant, congrArg (fun x => x.unmapped) plant,
    congrArg (fun x => x.malformed) plant, congrArg (fun x => x.withheld) plant, congrArg (fun x => x.unguarded) plant,
    actuators, congrArg (fun x => x.limits) plant, congrArg (fun x => x.nextEntry) plant,
    congrArg (fun x => x.channels) plant, ported, fun l => ?_, allowed, orders, gateway, follow, sink, units.runback.1,
    units.runback.2, congrArg (fun x => x.capture) plant, own, congrArg (fun x => x.log) plant,
    fun l => ⟨(lines l).2.2.1, (lines l).2.2.2⟩, fun l => ⟨congrArg (fun x => x.causes.integrity) (units.trip l), ?_⟩,
    field.seq, fun hu hr => ?_, station, enable, others, fun hl => ?_⟩
  · obtain ⟨tripped, cold, noSink, manual, queue, engine, bed⟩ := units.feed l
    exact ⟨congrArg (fun x => x.causes.restart) (units.trip l), congrArg (fun x => x.causes.manual) (units.trip l),
      congrArg (fun x => x.causes.drumLowLow) (units.trip l), congrArg (fun x => x.grace) (units.trip l), tripped, cold,
      noSink, manual, queue, engine, bed, (lines l).1, (lines l).2.1⟩
  · exact units.emission l
  · rw [sup, hsup] at hu ⊢
    exact hseq hu
  · obtain ⟨set, fault⟩ := units.causes hl
    exact ⟨fun l => ⟨(set l).1.1, (set l).1.2, (set l).2.trans (units.emission l).symm⟩, fault⟩

end Sys2Proof.Machine
end

section
/-! SUPPORT. What an arrival comes to that raises a port error, that is a request, or that no slot matches (R5, R19, R26). -/

namespace Sys2Proof.Machine

/-! ### A port error as an event -/

theorem noticed_portErrorEvent (k : PortErrorKind) (p : PortId) (s : State) :
    Noticed 2 [.portError, .originLoss] (s.modPort p fun q => { q with errors := q.errors.add k })
      (asEvent (portError k p) s) :=
  noticed_noticesSince_setCause .portError none p.code rfl

theorem sameButNotices_portErrorEvent (k : PortErrorKind) (p : PortId) (s : State) :
    SameButNotices s (asEvent (portError k p) s) :=
  sameButNotices_of_lessNotices ((noticed_portErrorEvent k p s).rest.trans rfl)

/-- A port error event counts at its port; NOTICEs change neither a port's error record nor its transit queue. -/
theorem port_portErrorEvent (k : PortErrorKind) (p p' : PortId) (s : State) :
    ((asEvent (portError k p) s).port p').errors = (if p' = p then (s.port p).errors.add k else (s.port p').errors) ∧
      ((asEvent (portError k p) s).port p').transit = (s.port p').transit := by
  have hn := noticed_portErrorEvent k p s
  have counted : ((s.modPort p fun q => { q with errors := q.errors.add k }).port p').errors =
      (if p' = p then (s.port p).errors.add k else (s.port p').errors) ∧
      ((s.modPort p fun q => { q with errors := q.errors.add k }).port p').transit = (s.port p').transit := by
    rw [State.port_modPort]
    split
    · rename_i h
      subst h
      exact ⟨rfl, rfl⟩
    · exact ⟨rfl, rfl⟩
  generalize asEvent (portError k p) s = t at hn
  cases p' with
  | field =>
    rw [hn.field]
    exact counted
  | supervisor =>
    obtain ⟨urgent, routine, seq, hp, -⟩ := hn.supervisor
    rw [hp]
    exact counted

/-! ### Requests (R19) -/

/-- A MANAGE frame to the own station on SUPERVISOR comes to the request queue. -/
theorem exec_arrival_of_manage {f : Frame} {s : State} (hr : s.resetAsserted = false)
    (hu : (s.port .supervisor).linkUp = true) (hown : f.dest = s.ownStation) (hd : f.dest ≠ 0#8) (hk : f.kind = kindManage)
    (hl : f.payload.length ≤ 55) :
    exec (.frameArrival .supervisor f.bytes) s = .next (asEvent (requestArrives f) s) := by
  have : frameArrival .supervisor f.bytes s = asEvent (requestArrives f) s := by
    simp [frameArrival, unlessHeld, asEvent, classify, hr, hu, f.parse_bytes, Frame.lengthCheck_bytes hd hl,
      f.checkTest_bytes, hown, hk]
  exact congrArg Host.Outcome.next this

/-! ### Frames that no slot matches (R26) -/

theorem matchFrame_of_unmatched {p : PortId} {bytes : List Byte} {f : Frame} {s : State}
    (h : ∀ m ∈ s.matchTable, m.matches p bytes = false) :
    matchFrame p bytes f s = finishArrival p bytes none (carry p f s) := by
  have hd : s.decidingSlot p bytes = none := List.findIdx?_eq_none_iff.mpr h
  unfold matchFrame
  rw [hd]

theorem command?_of_kind {f : Frame} (h : f.kind ≠ kindCommand) : f.command? = none := by
  unfold Frame.command?
  rw [if_neg fun hc => h hc.1]

/-- A frame that is no COMMAND is not clamped (R27). -/
theorem carry_of_kind {p : PortId} {f : Frame} {s : State} (h : f.kind ≠ kindCommand) :
    carry p f s = forwardAs p f .forwarded none s := by
  have hm : s.clampMoves p f = none := by
    unfold State.clampMoves
    rw [command?_of_kind h]
    cases p <;> rfl
  unfold carry
  rw [hm]

/-- A frame that finds its transit queue full is dropped, with an overrun (R26). -/
theorem forwardAs_of_full {p : PortId} {f : Frame} {d : Disposition} {src : Option CaptureSource} {s : State}
    (h : 32 ≤ (s.port (PortId.opposite p)).transit.length) : forwardAs p f d src s = ⟨s, .dropped, src, true⟩ := by
  have hlost : (s.enterTransit p f).2 = false :=
    Bool.eq_false_iff.mpr fun he => absurd ((enterTransit_entered s p f).mp he) (Nat.not_lt.mpr h)
  unfold forwardAs
  dsimp only
  rw [hlost, enterTransit_lost hlost]
  rfl

/-- A frame that enters its transit queue and is no COMMAND is all that changes. -/
theorem enterTransit_of_kind {p : PortId} {f : Frame} {s : State} (h : f.kind ≠ kindCommand)
    (hl : (s.port (PortId.opposite p)).transit.length < 32) : s.enterTransit p f = ({ s with
      nextMark := s.nextMark + 1
      ports := s.ports.set (PortId.opposite p) { s.port (PortId.opposite p) with
        transit := (s.port (PortId.opposite p)).transit ++ [⟨s.nextMark, f⟩] } }, true) := by
  unfold State.enterTransit
  rw [command?_of_kind h]
  dsimp only
  rw [if_pos hl]
  cases p <;> rfl

/-- The end of the arrival of a frame from which nothing is offered. -/
theorem finishArrival_of_unoffered {p : PortId} {bytes : List Byte} {d : Disposition} {s : State} (overrun : Bool)
    (ht : s.tripOffers = 0) :
    finishArrival p bytes none ⟨s, d, none, overrun⟩ = if overrun then portError .overrun p s else s := by
  have hs : Decided.sources ⟨s, d, none, overrun⟩ none = [] := by simp [Decided.sources, ht]
  have ha : { s with tripOffers := 0 } = s := by rw [← ht]
  unfold finishArrival
  rw [hs]
  dsimp only
  rw [ha]
  rfl

end Sys2Proof.Machine
end

section
/-! The statements on requests and unmatched frames. -/

namespace Sys2Proof.Machine

/-- Settles O11: the request enters, or is counted as a stray. -/
theorem arrivalQueuesRequest : Obligations.ArrivalQueuesRequest := by
  intro f s hr hu hown hd hk hl
  have hx := exec_arrival_of_manage hr hu hown hd hk hl
  refine ⟨fun hroom => ?_, fun hfull => ?_⟩
  · have entered : requestArrives f s = { s with requests := s.requests ++ [⟨f, s.plantTime⟩] } := if_pos hroom
    rw [hx]
    refine congrArg Host.Outcome.next ?_
    unfold asEvent
    rw [entered]
    exact noticesSince_of_attention rfl
  · have stray : requestArrives f s = portError .stray .supervisor s := if_neg (Nat.not_lt.mpr hfull)
    have event : asEvent (requestArrives f) s = asEvent (portError .stray .supervisor) s :=
      congrArg (noticesSince s) stray
    rw [event] at hx
    refine ⟨_, hx, sameButNotices_portErrorEvent _ _ s, ?_⟩
    rw [(port_portErrorEvent .stray .supervisor .supervisor s).1]
    rfl

/-- Settles O12: the frame enters its transit queue, or is counted as an overrun. -/
theorem arrivalForwardsUnmatched : Obligations.ArrivalForwardsUnmatched := by
  intro p f s hr hu hown hd hk hl ht hm
  have hx := exec_arrival_of_passing hr hu hown hd hl
  have decided : matchFrame p f.bytes f s = finishArrival p f.bytes none (forwardAs p f .forwarded none s) := by
    rw [matchFrame_of_unmatched hm, carry_of_kind hk]
  refine ⟨fun hroom => ?_, fun hfull => ?_⟩
  · have entered := enterTransit_of_kind (p := p) hk hroom
    have forwarded : matchFrame p f.bytes f s = (s.enterTransit p f).1 := by
      rw [decided]
      unfold forwardAs
      dsimp only
      rw [entered]
      exact finishArrival_of_unoffered false ht
    have event : asEvent (matchFrame p f.bytes f) s = (s.enterTransit p f).1 := by
      unfold asEvent
      rw [forwarded, entered]
      exact noticesSince_of_attention rfl
    rw [hx, event, entered]
  · rw [forwardAs_of_full hfull] at decided
    have lost : matchFrame p f.bytes f s = portError .overrun p s :=
      decided.trans (finishArrival_of_unoffered true ht)
    have event : asEvent (matchFrame p f.bytes f) s = asEvent (portError .overrun p) s := congrArg (noticesSince s) lost
    rw [event] at hx
    refine ⟨_, hx, sameButNotices_portErrorEvent _ _ s, (port_portErrorEvent .overrun p _ s).2, ?_⟩
    rw [(port_portErrorEvent .overrun p p s).1, if_pos rfl]
    rfl

end Sys2Proof.Machine
end

section
/-! SUPPORT. A SET for the turbine on its way to the downward transit queue (R27, R83, R87). -/

namespace Sys2Proof.Machine

/-- The end of an arrival leaves the transit queues. -/
theorem transit_finishArrival (p : PortId) (bytes : List Byte) (slot : Option CaptureSource) (x : Decided) (q : PortId) :
    ((finishArrival p bytes slot x).port q).transit = (x.after.port q).transit := by
  have offered := arrivalOffers_keep State.ports ports_choose ports_captureOffer p bytes x.after.plantTime x.disposition
    (x.sources slot) { x.after with tripOffers := 0 }
  have kept (s : State) : ((portError .overrun p s).port q).transit = (s.port q).transit := by
    show ((s.modPort p fun r => { r with errors := r.errors.add .overrun }).port q).transit = _
    rw [State.port_modPort]
    split
    · rename_i h
      rw [h]
    · rfl
  have sent := congrArg (fun ps => (PerPort.get ps q).transit) offered
  unfold finishArrival
  dsimp only
  split
  · exact (kept _).trans sent
  · exact sent

/-- A value clamped to the allowed load lies from 0 to it, and is no greater than one that is positive. -/
theorem clamp_allowed (allowed : Nat) (v : Int) :
    0 ≤ clamp 0 allowed v ∧ clamp 0 allowed v ≤ allowed ∧ (v ≤ 32767 → clamp 0 allowed v ≤ 32767) := by
  unfold clamp
  split
  · omega
  · split <;> omega

theorem boundClamp_turbine {a : Actuator} (h : a.role = .turbineLoad) (s : State) (v : Int) :
    s.boundClamp a v = some (clamp 0 s.dispatch.allowed v) := by
  unfold State.boundClamp
  rw [h]
  rfl

theorem command?_set (dest src seq flags : Byte) {number : Nat} {v : Int} (hn : number < 65536) (h1 : -32768 ≤ v)
    (h2 : v ≤ 32767) :
    Frame.command? ⟨dest, src, 0x20#8, seq, flags, be16 number ++ [1] ++ sbe16 v⟩ = some ⟨number, .set, v⟩ := by
  have hnumber : u16At (be16 number ++ ([1] ++ sbe16 v)) 0 = number := u16At_payload hn _
  have hvalue := s16At_sbe16 (be16 number ++ [1]) [] h1 h2
  rw [List.append_nil] at hvalue
  rw [← List.append_assoc] at hnumber
  unfold Frame.command?
  rw [if_pos ⟨rfl, rfl⟩]
  dsimp only
  rw [hnumber, show s16At (be16 number ++ [1] ++ sbe16 v) 3 = v from hvalue]
  rfl

/-- What is new in the downward transit queue is a SET for an actuator from 0 to the allowed load. -/
def NewBounded (number : Nat) (s t : State) : Prop :=
  ∀ w ∈ (t.port .field).transit, w ∈ (s.port .field).transit ∨
    ∃ x, w.frame.command? = some ⟨number, .set, x⟩ ∧ 0 ≤ x ∧ x ≤ s.dispatch.allowed

theorem newBounded_of_transit {number : Nat} {s t : State} (h : (t.port .field).transit = (s.port .field).transit) :
    NewBounded number s t := fun _ hw => .inl (h ▸ hw)

theorem newBounded_forwardAs {number : Nat} {s : State} {g : Frame} {x : Int} (d : Disposition)
    (src : Option CaptureSource) (hg : g.command? = some ⟨number, .set, x⟩) (h0 : 0 ≤ x) (h1 : x ≤ s.dispatch.allowed) :
    NewBounded number s (forwardAs .supervisor g d src s).after := by
  by_cases hl : (s.port .field).transit.length < 32
  · intro w hw
    have hsent : ((forwardAs .supervisor g d src s).after.port .field).transit =
        (s.port .field).transit ++ [⟨s.nextMark, g⟩] := (forwardAs_of_room (p := .supervisor) hl).2
    rw [hsent] at hw
    rcases List.mem_append.mp hw with hw | hw
    · exact .inl hw
    · rw [List.mem_singleton.mp hw]
      exact .inr ⟨x, hg, h0, h1⟩
  · rw [forwardAs_of_full (p := .supervisor) (Nat.not_lt.mp hl)]
    exact newBounded_of_transit rfl

/-- A frame sent with its value clamped, or as it is where the clamp does not move it. -/
theorem newBounded_clamped {f : Frame} {s : State} {number : Nat} {v : Int}
    (hf : f.command? = some ⟨number, .set, v⟩) (h2 : v ≤ 32767) (d d' : Disposition) (src src' : Option CaptureSource) :
    NewBounded number s (if clamp 0 s.dispatch.allowed v = v then forwardAs .supervisor f d src s
      else forwardAs .supervisor (f.rewrittenTo (clamp 0 s.dispatch.allowed v)) d' src' s).after := by
  obtain ⟨h0, h1, hmax⟩ := clamp_allowed s.dispatch.allowed v
  split
  · rename_i hc
    exact newBounded_forwardAs d src hf (hc ▸ h0) (hc ▸ h1)
  · exact newBounded_forwardAs d' src' (command?_rewrittenTo hf (by omega) (hmax h2)) h0 h1

section
variable {f : Frame} {s : State} {number entry : Nat} {v : Int} {a : Actuator}
  (hf : f.command? = some ⟨number, .set, v⟩) (h2 : v ≤ 32767) (he : s.entryOf number = some entry)
  (ha : s.actuator entry = some a) (hr : a.role = .turbineLoad)
include hf h2 he ha hr

theorem newBounded_carry : NewBounded number s (carry .supervisor f s).after := by
  have hm : s.clampMoves .supervisor f = (some (clamp 0 s.dispatch.allowed v)).filter fun w => w != v := by
    unfold State.clampMoves
    rw [hf]
    dsimp only
    rw [he, Option.bind_some, ha]
    dsimp only
    rw [boundClamp_turbine hr]
  have hc : carry .supervisor f s = if clamp 0 s.dispatch.allowed v = v then forwardAs .supervisor f .forwarded none s
      else forwardAs .supervisor (f.rewrittenTo (clamp 0 s.dispatch.allowed v)) .rewritten (some .clamp) s := by
    unfold carry
    rw [hm]
    by_cases h : clamp 0 s.dispatch.allowed v = v
    · have hn : (some (clamp 0 s.dispatch.allowed v)).filter (fun w => w != v) = none := by simp [Option.filter, h]
      rw [hn, if_pos h]
    · have hs : (some (clamp 0 s.dispatch.allowed v)).filter (fun w => w != v) = some (clamp 0 s.dispatch.allowed v) := by
        simp [Option.filter, h]
      rw [hs, if_neg h]
  rw [hc]
  exact newBounded_clamped hf h2 _ _ _ _

theorem newBounded_guardFrame : NewBounded number s (guardFrame f s).after := by
  have hv : s.roleVerdict a ⟨number, .set, v⟩ = Verdict.ofValue v (clamp 0 s.dispatch.allowed v) := by
    unfold State.roleVerdict State.boundedVerdict
    rw [hr]
    dsimp only
    rw [boundClamp_turbine hr]
    rfl
  have hg : guardFrame f s = applyVerdict f (Verdict.ofValue v (clamp 0 s.dispatch.allowed v)) s := by
    unfold guardFrame
    rw [hf]
    dsimp only
    rw [he, Option.bind_some, ha]
    dsimp only
    rw [hv]
  have hc : guardFrame f s = if clamp 0 s.dispatch.allowed v = v then forwardAs .supervisor f .forwarded none s
      else forwardAs .supervisor (f.rewrittenTo (clamp 0 s.dispatch.allowed v)) .rewritten (some .clamp) s := by
    rw [hg, Verdict.ofValue]
    split <;> rfl
  rw [hc]
  exact newBounded_clamped hf h2 _ _ _ _

/-- Guarded or not, a SET for the turbine enters bounded, whatever slot decides it. -/
theorem newBounded_matchFrame (bytes : List Byte) : NewBounded number s (matchFrame .supervisor bytes f s) := by
  have carried := newBounded_carry hf h2 he ha hr
  have finished {slot : Option CaptureSource} {x : Decided} (h : NewBounded number s x.after) :
      NewBounded number s (finishArrival .supervisor bytes slot x) := fun w hw =>
    h w (transit_finishArrival .supervisor bytes slot x .field ▸ hw)
  obtain ⟨hkind, -, -, -, -⟩ := command?_eq_some hf
  unfold matchFrame
  split
  · exact finished carried
  · refine finished ?_
    unfold actOn
    split
    · exact carried
    · exact newBounded_of_transit rfl
    · rw [if_neg (by rw [hkind]; decide)]
      exact carried
    · rw [if_pos ⟨hkind, rfl⟩]
      exact newBounded_guardFrame hf h2 he ha hr

end

end Sys2Proof.Machine
end

section
/-! The statement on SETs for the turbine. -/

namespace Sys2Proof.Machine

/-- Settles O14: the clamp of R27 and the guard bound the value by the allowed load. -/
theorem turbineSetsEnterBounded : Obligations.TurbineSetsEnterBounded := by
  intro dest src seq flags number entry v a s t f hr hu hown hd hn h1 h2 he ha hrole hx w hw hnew
  have hf : f.command? = some ⟨number, .set, v⟩ := command?_set dest src seq flags hn h1 h2
  rw [exec_arrival_of_passing hr hu hown hd (f := f) (by simp [f, be16_length, sbe16])] at hx
  cases hx
  have hw' : w ∈ ((matchFrame .supervisor f.bytes f s).port .field).transit := transit_noticesSince .field s _ ▸ hw
  exact (newBounded_matchFrame hf h2 he ha hrole f.bytes w hw').resolve_left hnew

end Sys2Proof.Machine
end

section
/-! SUPPORT. WRITE_ENTRY on MATCH, FEED_SETTINGS and RUNBACK, from their argument areas (R22, R117, R161). -/

namespace Sys2Proof.Machine

theorem ofCode?_code (d : Direction) : Direction.ofCode? d.code = some d := by
  cases d <;> rfl

/-- The index of a WRITE_ENTRY whose high byte is 0. -/
theorem indexArg_low (table index : Byte) (rec : List Byte) : indexArg (table :: 0 :: index :: rec) = index.toNat := by
  have high : byteAt (table :: 0 :: index :: rec) 1 = 0 := rfl
  have low : byteAt (table :: 0 :: index :: rec) (1 + 1) = index.toNat := rfl
  rw [indexArg, u16At, high, low, Nat.zero_mul, Nat.zero_add]

/-- The slot of a good MATCH record (R14, R22). -/
theorem ofRecord?_good {control minimum : Byte} {mask value : List Byte} {d : Direction} (hm : mask.length = 24)
    (hv : value.length = 24) (hc : control.toNat < 64) (h1 : 8 ≤ minimum.toNat) (h2 : minimum.toNat ≤ 63)
    (hd : control.toNat / 4 % 4 = d.code) :
    MatchSlot.ofRecord? (control :: minimum :: (mask ++ value)) = some
      ⟨control.getLsbD 0, d, minimum.toNat, mask, value, Action.ofCode (control.toNat / 16), control.getLsbD 1⟩ := by
  have h0 : byteAt (control :: minimum :: (mask ++ value)) 0 = control.toNat := rfl
  have h1' : byteAt (control :: minimum :: (mask ++ value)) 1 = minimum.toNat := rfl
  have hmask : ((control :: minimum :: (mask ++ value)).drop 2).take 24 = mask := by
    rw [← hm]
    exact List.take_left
  have hvalue : ((control :: minimum :: (mask ++ value)).drop 26).take 24 = value := by
    have : (control :: minimum :: (mask ++ value)).drop 26 = value := by
      show (mask ++ value).drop 24 = value
      rw [← hm]
      exact List.drop_left
    rw [this, ← hv, List.take_length]
  have ha : control.toNat / 16 % 4 = control.toNat / 16 := by omega
  unfold MatchSlot.ofRecord?
  dsimp only
  rw [h0, h1', hd, ofCode?_code]
  dsimp only
  rw [if_pos ⟨hc, h1, h2⟩, hmask, hvalue, ha]
  rfl

theorem writeMatchBody_good {slot control minimum : Byte} {mask value : List Byte} {d : Direction} {s : State}
    (hm : mask.length = 24) (hv : value.length = 24) (hs : slot.toNat ≤ 23) (hc : control.toNat < 64)
    (h1 : 8 ≤ minimum.toNat) (h2 : minimum.toNat ≤ 63) (hd : control.toNat / 4 % 4 = d.code) :
    writeMatchBody ([1, 0, slot, control, minimum] ++ mask ++ value) s = answer .done { s with
      matchTable := s.matchTable.set slot.toNat
        ⟨control.getLsbD 0, d, minimum.toNat, mask, value, Action.ofCode (control.toNat / 16), control.getLsbD 1⟩ } := by
  have hargs : [1, 0, slot, control, minimum] ++ mask ++ value = 1 :: 0 :: slot :: control :: minimum :: (mask ++ value) := by
    simp
  have hrec : recordArg (1 :: 0 :: slot :: control :: minimum :: (mask ++ value)) = control :: minimum :: (mask ++ value) :=
    rfl
  unfold writeMatchBody
  rw [hargs, indexArg_low, if_neg (Nat.not_lt.mpr hs), hrec, ofRecord?_good hm hv hc h1 h2 hd]

theorem writeFeedSettingsBody_good {l : Line} {ttl : Nat} {timeout settle : Byte} {s : State} (h1 : 10 ≤ ttl)
    (h2 : ttl ≤ 600) (h3 : 2 ≤ timeout.toNat) (h4 : timeout.toNat ≤ 60) (h5 : 1 ≤ settle.toNat) (h6 : settle.toNat ≤ 120) :
    writeFeedSettingsBody ([5, 0, u8 l.code] ++ be16 ttl ++ [timeout, settle]) s =
      answer .done (s.modFeed l fun f => { f with ttl := ttl, timeout := timeout.toNat, settle := settle.toNat }) := by
  have hindex : lineArg? (indexArg ([5, 0, u8 l.code] ++ be16 ttl ++ [timeout, settle])) = some l := by
    have : indexArg ([5, 0, u8 l.code] ++ be16 ttl ++ [timeout, settle]) = (u8 l.code).toNat := indexArg_low _ _ _
    rw [this]
    cases l <;> rfl
  have hrec : recordArg ([5, 0, u8 l.code] ++ be16 ttl ++ [timeout, settle]) = be16 ttl ++ [timeout, settle] := rfl
  have httl : u16At (be16 ttl ++ [timeout, settle]) 0 = ttl := u16At_payload (by omega) _
  have htimeout : byteAt (be16 ttl ++ [timeout, settle]) 2 = timeout.toNat := rfl
  have hsettle : byteAt (be16 ttl ++ [timeout, settle]) 3 = settle.toNat := rfl
  unfold writeFeedSettingsBody
  dsimp only
  rw [hindex, hrec, httl, htimeout, hsettle]
  exact if_pos ⟨h1, h2, h3, h4, h5, h6⟩

section
variable {depth floor hold : Nat} {select : Byte} {s : State} (hd : 10 ≤ depth) (hd' : depth ≤ 600) (hf : floor ≤ 600)
  (hh : 5 ≤ hold) (hh' : hold ≤ 300)
include hd hd' hf hh hh'

/-- A RUNBACK record in range comes to the test of its release select (R161). -/
theorem writeRunbackBody_inRange (hs : select.toNat ≤ 7) :
    writeRunbackBody ([6, 0, 0] ++ be16 depth ++ be16 floor ++ be16 hold ++ [select]) s =
      if 3 < select.toNat then answer .ignored s else answer .done (s.modRunback fun r =>
        { r with depth := depth, floor := floor, hold := hold, releaseSelect := select.toNat }) := by
  have hindex : indexArg ([6, 0, 0] ++ be16 depth ++ be16 floor ++ be16 hold ++ [select]) = 0 := indexArg_low _ _ _
  have hrec : recordArg ([6, 0, 0] ++ be16 depth ++ be16 floor ++ be16 hold ++ [select]) =
      be16 depth ++ (be16 floor ++ (be16 hold ++ [select])) := rfl
  have hdepth : u16At (be16 depth ++ (be16 floor ++ (be16 hold ++ [select]))) 0 = depth := u16At_payload (by omega) _
  have hfloor : u16At (be16 depth ++ (be16 floor ++ (be16 hold ++ [select]))) 2 = floor :=
    u16At_be16 (be16 depth) (be16 hold ++ [select]) (by omega)
  have hhold : u16At (be16 depth ++ (be16 floor ++ (be16 hold ++ [select]))) 4 = hold := by
    have := u16At_be16 (be16 depth ++ be16 floor) [select] (n := hold) (by omega)
    rwa [List.append_assoc] at this
  have hselect : byteAt (be16 depth ++ (be16 floor ++ (be16 hold ++ [select]))) 6 = select.toNat := rfl
  unfold writeRunbackBody
  dsimp only
  rw [hindex, hrec, hdepth, hfloor, hhold, hselect]
  rw [if_neg (not_not.mpr rfl), if_neg (not_not.mpr ⟨hd, hd'⟩), if_neg (Nat.not_lt.mpr hf), if_neg (not_not.mpr ⟨hh, hh'⟩),
    if_neg (Nat.not_lt.mpr hs)]

end

end Sys2Proof.Machine
end

section
/-! The statement on settings writes. -/

namespace Sys2Proof.Machine

/-- Settles O31: each body, on a record in range, writes that record alone. -/
theorem settingsWrites : Obligations.SettingsWrites := by
  refine ⟨?_, ?_, ?_⟩
  · intro r rest slot control minimum mask value d s h hargs hm hv hs hc h1 h2 hd
    have hb := writeMatchBody_good (s := s.beginExecution rest) hm hv hs hc h1 h2 hd
    rw [← hargs] at hb
    have hl : r.args.length = 53 := by simp [hargs, hm, hv]
    exact congrArg Host.Outcome.next (serve_sized h hl hb rfl)
  · intro r rest l ttl timeout settle s h hargs h1 h2 h3 h4 h5 h6
    have hb := writeFeedSettingsBody_good (s := s.beginExecution rest) (l := l) h1 h2 h3 h4 h5 h6
    rw [← hargs] at hb
    have hl : r.args.length = 7 := by simp [hargs, be16_length]
    exact congrArg Host.Outcome.next (serve_sized h hl hb rfl)
  · intro r rest depth floor hold select s h hargs h1 h2 h3 h4 h5
    have hl : r.args.length = 10 := by simp [hargs, be16_length]
    refine ⟨fun hs => ?_, fun hs hs' => ?_⟩
    · have hb := writeRunbackBody_inRange (s := s.beginExecution rest) (select := select) h1 h2 h3 h4 h5 (by omega)
      rw [← hargs, if_neg (Nat.not_lt.mpr hs)] at hb
      exact congrArg Host.Outcome.next (serve_sized h hl hb rfl)
    · have hb := writeRunbackBody_inRange (s := s.beginExecution rest) (select := select) h1 h2 h3 h4 h5 hs'
      rw [← hargs, if_pos (Nat.lt_of_succ_le hs)] at hb
      exact congrArg Host.Outcome.next (serve_sized h hl hb rfl)

end Sys2Proof.Machine
end

section
/-! SUPPORT. A SCHEDULE that is accepted and not yet due (R143, R144, R147). -/

namespace Sys2Proof.Machine

/-! ### The order's payload (R9) -/

/-- The payload of a SCHEDULE. -/
def schedulePayload (number effective target rate : Nat) : List Byte :=
  be16 number ++ [1] ++ be32 effective ++ be16 target ++ be16 rate

section
variable {number effective target rate : Nat}

theorem schedule_number (h : number < 65536) : u16At (schedulePayload number effective target rate) 0 = number := by
  have := u16At_payload h ([1] ++ be32 effective ++ be16 target ++ be16 rate)
  rwa [← List.append_assoc, ← List.append_assoc, ← List.append_assoc] at this

theorem schedule_effective (h : effective < 4294967296) :
    u32At (schedulePayload number effective target rate) 3 = effective := by
  have h3 : byteAt (schedulePayload number effective target rate) 3 = effective / 16777216 % 256 := u8_toNat _
  have h4 : byteAt (schedulePayload number effective target rate) 4 = effective / 65536 % 256 := u8_toNat _
  have h5 : byteAt (schedulePayload number effective target rate) 5 = effective / 256 % 256 := u8_toNat _
  have h6 : byteAt (schedulePayload number effective target rate) 6 = effective % 256 := u8_toNat _
  rw [u32At, u16At, u16At, h3, h4, h5, h6]
  omega

theorem schedule_target (h : target < 65536) : u16At (schedulePayload number effective target rate) 7 = target := by
  have := u16At_be16 (be16 number ++ [1] ++ be32 effective) (be16 rate) h
  rwa [← List.append_assoc] at this

theorem schedule_rate (h : rate < 65536) : u16At (schedulePayload number effective target rate) 9 = rate := by
  have := u16At_be16 (be16 number ++ [1] ++ be32 effective ++ be16 target) [] h
  rwa [List.append_nil] at this

end

/-! ### The order queue (R144, R147) -/

/-- An order is inserted behind those due no later and ahead of those due later. -/
theorem insertOrder_split (o : Order) {orders : List Order} (h : orders.Pairwise fun a b => a.effective ≤ b.effective) :
    ∃ before after, orders = before ++ after ∧ insertOrder o orders = before ++ [o] ++ after ∧
      (∀ x ∈ before, x.effective ≤ o.effective) ∧ ∀ x ∈ after, o.effective < x.effective := by
  induction orders with
  | nil => exact ⟨[], [], rfl, rfl, List.forall_mem_nil _, List.forall_mem_nil _⟩
  | cons q rest ih =>
    obtain ⟨hq, hrest⟩ := List.pairwise_cons.mp h
    unfold insertOrder
    split
    · rename_i hle
      obtain ⟨before, after, hs, hi, hb, ha⟩ := ih hrest
      exact ⟨q :: before, after, by rw [hs]; rfl, by rw [hi]; rfl, List.forall_mem_cons.mpr ⟨hle, hb⟩, ha⟩
    · rename_i hlt
      exact ⟨[], q :: rest, rfl, rfl, List.forall_mem_nil _, List.forall_mem_cons.mpr
        ⟨Nat.not_le.mp hlt, fun x hx => Nat.lt_of_lt_of_le (Nat.not_le.mp hlt) (hq x hx)⟩⟩

theorem length_insertOrder (o : Order) (orders : List Order) : (insertOrder o orders).length = orders.length + 1 := by
  induction orders with
  | nil => rfl
  | cons q rest ih =>
    unfold insertOrder
    split
    · exact congrArg (· + 1) ih
    · rfl

theorem mem_insertOrder {o x : Order} {orders : List Order} (h : x ∈ insertOrder o orders) : x = o ∨ x ∈ orders := by
  induction orders with
  | nil => exact .inl (List.mem_singleton.mp h)
  | cons q rest ih =>
    unfold insertOrder at h
    split at h
    · rcases List.mem_cons.mp h with rfl | h
      · exact .inr List.mem_cons_self
      · exact (ih h).imp_right (List.mem_cons_of_mem _)
    · exact (List.mem_cons.mp h)

/-- Orders all due later activate nothing (R147). -/
theorem activate_of_later {s : State} (h : ∀ o ∈ s.dispatch.orders, s.plantTime < o.effective) : activate s = s := by
  have hdue : s.dispatch.orders.takeWhile (fun o => decide (o.effective ≤ s.plantTime)) = [] := by
    cases horders : s.dispatch.orders with
    | nil => rfl
    | cons o rest =>
      have := h o (horders ▸ List.mem_cons_self)
      rw [List.takeWhile_cons_of_neg (by simpa using this)]
  unfold activate
  dsimp only
  rw [hdue]
  rfl

/-- A SCHEDULE within every limit, of a number not queued, with room in the queue (R144). -/
theorem schedule_accepted {o : Order} {s : State} (ht : (o.target : Int) ≤ s.limit (.plant .maxLoad)) (hr : o.rate ≤ 600)
    (he : o.effective ≤ s.plantTime + 604800) (hn : ∀ q ∈ s.dispatch.orders, q.number ≠ o.number)
    (hl : s.dispatch.orders.length < 16) :
    schedule o s = (s.modDispatch fun d => { d with orders := insertOrder o d.orders }, .accepted) := by
  have hany : (s.dispatch.orders.any fun q => decide (q.number = o.number)) = false := by
    simpa using hn
  unfold schedule
  rw [if_neg (by omega), if_neg (by omega), if_neg (by omega), hany, if_neg Bool.false_ne_true, if_neg (by omega)]

/-! ### Its handling (R143) -/

/-- An ORDER frame from the gateway to the own station, of the length of R9, comes to the dispatch unit (R20). -/
theorem exec_arrival_of_order {f : Frame} {s : State} (hr : s.resetAsserted = false)
    (hu : (s.port .supervisor).linkUp = true) (hown : f.dest = s.ownStation) (hd : f.dest ≠ 0#8) (hk : f.kind = kindOrder)
    (hl : f.payload.length = 11) (hg : f.src.toNat = s.dispatch.gateway) (hs : f.src ≠ 0#8) :
    exec (.frameArrival .supervisor f.bytes) s = .next (asEvent (handleOrder f) s) := by
  have hg0 : s.dispatch.gateway ≠ 0 := fun h => hs (BitVec.eq_of_toNat_eq (hg.trans h))
  have hc : classify .supervisor f.bytes f s = handleOrder f s := by
    unfold classify
    rw [if_pos hown, if_neg (by rw [hk]; decide), if_pos ⟨hk, rfl, hg0, hg⟩]
    exact if_pos hl
  have : frameArrival .supervisor f.bytes s = asEvent (handleOrder f) s := by
    simp [frameArrival, unlessHeld, asEvent, hr, hu, f.parse_bytes, Frame.lengthCheck_bytes hd (by omega : f.payload.length ≤ 55),
      f.checkTest_bytes, hc]
  exact congrArg Host.Outcome.next this

/-- The part with an order inserted and the allowed load computed again. -/
def scheduled (o : Order) (s : State) : State :=
  recomputeAllowed .routine (s.modDispatch fun d => { d with orders := insertOrder o d.orders })

theorem scheduled_facts (o : Order) (s : State) :
    (scheduled o s).dispatch.orders = insertOrder o s.dispatch.orders ∧
      (scheduled o s).dispatch.target = s.dispatch.target ∧ (scheduled o s).dispatch.rate = s.dispatch.rate ∧
      UrgentOnly s (scheduled o s) ∧ (scheduled o s).reservation = s.reservation ∧
      (scheduled o s).ownStation = s.ownStation := by
  have hd := dispatch_recomputeAllowed .routine (s.modDispatch fun d => { d with orders := insertOrder o d.orders })
  have hl := lessLoad_recomputeAllowed .routine (s.modDispatch fun d => { d with orders := insertOrder o d.orders })
  exact ⟨congrArg DispatchUnit.orders hd, congrArg (fun d => d.target) hd, congrArg (fun d => d.rate) hd,
    (calm_urgentOnly s).recomputeAllowed _ ((calm_urgentOnly s).dispatch s _ (fun _ => rfl)
      ⟨rfl, rfl, fun _ => rfl, fun _ _ => rfl⟩),
    congrArg (fun u => u.reservation) hl, congrArg (fun u => u.ownStation) hl⟩

theorem orderHandled_accepted {number effective target rate : Nat} {s : State} (hn : number < 65536)
    (he : effective < 4294967296) (htarget : target ≤ 600) (hrate : rate ≤ 600)
    (ht : (target : Int) ≤ s.limit (.plant .maxLoad)) (hlate : effective ≤ s.plantTime + 604800)
    (hdue : s.plantTime < effective) (hlater : ∀ o ∈ s.dispatch.orders, s.plantTime < o.effective)
    (hnew : ∀ o ∈ s.dispatch.orders, o.number ≠ number) (hl : s.dispatch.orders.length < 16) :
    orderHandled (schedulePayload number effective target rate) s =
      (scheduled ⟨number, effective, target, rate⟩ s, .accepted) := by
  have hverb : byteAt (schedulePayload number effective target rate) 2 = 1 := rfl
  have later : ∀ o ∈ insertOrder ⟨number, effective, target, rate⟩ s.dispatch.orders, s.plantTime < o.effective :=
    fun o ho => (mem_insertOrder ho).elim (fun h => h ▸ hdue) (hlater o)
  unfold orderHandled
  rw [hverb, schedule_number hn, schedule_effective he, schedule_target (by omega), schedule_rate (by omega)]
  dsimp only
  rw [schedule_accepted ht hrate hlate hnew hl]
  dsimp only
  rw [activate_of_later later]
  rfl

/-- An ORDER_ACK for which there is room enters at the tail of the SUPERVISOR ROUTINE queue (R143). -/
theorem orderAck_of_room {dest : Byte} {number : Nat} {st : AckStatus} {s : State} (hres : s.reservation = false)
    (hr : (s.port .supervisor).routine.length < 16) :
    (orderAck dest number st s).dispatch = s.dispatch ∧ (∀ c, (orderAck dest number st s).cause c = s.cause c) ∧
      (orderAck dest number st s).replies = s.replies ++ [⟨s.nextMark, s.originFrame .supervisor dest kindOrderAck
        (be16 number ++ [u8 st.code, u8 s.dispatch.orders.length])⟩] := by
  have hroom : ((s.port .supervisor).origin .routine).length < s.originCapacity .supervisor .routine := by
    unfold State.originCapacity
    rw [hres]
    exact hr
  unfold orderAck State.enterOrigin
  rw [if_pos hroom]
  exact ⟨rfl, fun _ => rfl, rfl⟩

end Sys2Proof.Machine
end

section
/-! The statement on SCHEDULE. -/

namespace Sys2Proof.Machine

/-- Settles O13: the order is inserted and acknowledged; what the event posts is URGENT. -/
theorem arrivalSchedulesOrder : Obligations.ArrivalSchedulesOrder := by
  intro src seq flags number effective target rate s f hr hu hown hres hg hsrc hn htarget ht hrate hdue hlate he hsound
    hlater hnew hl hroom
  have hx := exec_arrival_of_order (f := f) hr hu rfl hown rfl rfl hg hsrc
  have handled := orderHandled_accepted hn he htarget hrate ht hlate hdue hlater hnew hl
  obtain ⟨orders, htgt, hrt, urgent, hres', hown'⟩ := scheduled_facts ⟨number, effective, target, rate⟩ s
  have hroom' : ((scheduled ⟨number, effective, target, rate⟩ s).port .supervisor).routine.length < 16 := by
    rw [urgent.supervisor]
    exact hroom
  obtain ⟨disp, causes, replies⟩ := orderAck_of_room (dest := src) (number := number) (st := .accepted)
    (hres'.trans hres) hroom'
  have event : handleOrder f s = orderAck src number .accepted (scheduled ⟨number, effective, target, rate⟩ s) := by
    have hnumber : u16At f.payload 0 = number := schedule_number hn
    unfold handleOrder
    rw [show orderHandled f.payload s = _ from handled, hnumber]
  rw [asEvent, event] at hx
  obtain ⟨before, after, hs, hi, hb, ha⟩ := insertOrder_split ⟨number, effective, target, rate⟩ hsound.2.1
  generalize scheduled ⟨number, effective, target, rate⟩ s = u at *
  generalize orderAck src number .accepted u = v at *
  obtain ⟨⟨n, hnote⟩, hreplies⟩ := noticed_noticesSince (b := s) (s := v) fun c hc hset => by
    rwa [causes, urgent.routine c hc] at hset
  have hdisp : (noticesSince s v).dispatch = u.dispatch := (congrArg (fun x => x.dispatch) hnote.rest).trans disp
  refine ⟨_, before, after, hx, hs, ?_, hb, ha, ?_, ?_, u.nextMark, s.replies, u8 (u.port .supervisor).seq, ?_⟩
  · rw [hdisp, orders, hi]
  · rw [hdisp, htgt]
  · rw [hdisp, hrt]
  · have sent : u.replies = s.replies := congrArg Port.routine urgent.supervisor
    refine hreplies.trans (replies.trans ?_)
    rw [sent, orders, length_insertOrder, State.originFrame, hown']
    rfl

end Sys2Proof.Machine
end

section
/-! SUPPORT. The channel table under the operations that read it and do not write it: ticks, the grace count, limit changes,
orders and frames without readings. -/

namespace Sys2Proof.Machine

/-! ### From what an operation may change -/

theorem channels_of_updates {s t : State} (h : t.lessUpdates = s.lessUpdates) : t.channels = s.channels :=
  read_of_erased State.lessUpdates (fun _ => rfl) h

theorem channels_of_plant {s t : State} (h : t.lessPlant = s.lessPlant) : t.channels = s.channels :=
  channels_of_updates (lessUpdates_of_plant h)

theorem channels_of_feed {s t : State} (h : t.lessFeed = s.lessFeed) : t.channels = s.channels :=
  channels_of_plant (lessPlant_of_feed h)

theorem channels_of_load {s t : State} (h : t.lessLoad = s.lessLoad) : t.channels = s.channels :=
  channels_of_plant (lessPlant_of_load h)

theorem channels_of_origins {s t : State} (h : t.lessOrigins = s.lessOrigins) : t.channels = s.channels :=
  channels_of_plant (lessPlant_of_origins h)

theorem channels_of_notices {s t : State} (h : t.lessNotices = s.lessNotices) : t.channels = s.channels :=
  channels_of_plant (lessPlant_of_notices h)

/-! ### Shared operations -/

theorem channels_noticesSince (before s : State) : (noticesSince before s).channels = s.channels :=
  channels_of_notices (lessNotices_noticesSince before s)

theorem channels_asEvent {act : State → State} (h : ∀ s, (act s).channels = s.channels) (s : State) :
    (asEvent act s).channels = s.channels :=
  (channels_noticesSince s _).trans (h s)

theorem channels_postUpdates (goodAt : Option Nat) (fromReading : Bool) (cs : List Nat) (s : State) :
    (postUpdates goodAt fromReading cs s).channels = s.channels :=
  channels_of_updates (jobsKeep_lessUpdates.postUpdates goodAt fromReading cs s)

theorem channels_postFrom (goodAt : Option Nat) (fromReading : Bool) (x : Nat) (s : State) :
    (postFrom goodAt fromReading x s).channels = s.channels := channels_postUpdates goodAt fromReading _ s

theorem channels_choose (s : State) (n : Nat) : (s.choose n).2.channels = s.channels :=
  channels_of_plant (lessPlant_choose s n)

/-- What an action keeps, it keeps as a command that takes place only while RESET_N is not held. -/
theorem unlessHeld_keeps {β : Type} (erase : State → β) {act : State → State} (h : ∀ s, erase (act s) = erase s)
    (s : State) : erase (unlessHeld act s) = erase s := by
  unfold unlessHeld
  split
  · rfl
  · exact h s

/-! ### Runback, trips and the scrub -/

theorem channels_capPosted (cap : Option Nat) (s : State) : (capPosted cap s).channels = s.channels :=
  channels_of_load (lessLoad_capPosted cap s)

theorem channels_envelopeIdle (s : State) : (envelopeIdle s).channels = s.channels := channels_capPosted none _

theorem channels_addTripCause (l : Line) (c : TripCause) (s : State) : (addTripCause l c s).channels = s.channels :=
  channels_of_plant (lessPlant_addTripCause l c s)

theorem channels_scrub (s : State) : (scrub s).channels = s.channels :=
  channels_of_plant ((calm_lessPlant s).scrub rfl)

theorem channels_runbackTick (s : State) : (runbackTick s).channels = s.channels := by
  unfold runbackTick
  split
  · rfl
  · split <;> rfl
  · unfold releaseStep
    dsimp only
    split
    · exact channels_envelopeIdle s
    · exact channels_capPosted _ _

theorem channels_runbackMaxLoad (s : State) : (runbackMaxLoad s).channels = s.channels := by
  unfold runbackMaxLoad
  split
  · split
    · exact channels_envelopeIdle s
    · rfl
  · rfl

theorem channels_tripSweep (l : Line) (s : State) : (tripSweep l s).channels = s.channels := by
  unfold tripSweep
  split
  · rfl
  · dsimp only
    split
    · exact channels_addTripCause l .drumLowLow _
    · rfl

theorem channels_graceChange (l : Line) (s : State) : (graceChange l s).channels = s.channels := by
  unfold graceChange
  split
  · exact channels_addTripCause l .drumLowLow s
  · rfl

theorem channels_scrubTick (s : State) : (scrubTick s).channels = s.channels := by
  unfold scrubTick
  split
  · rfl
  · split
    · rfl
    · exact channels_scrub _

/-! ### Averagers -/

theorem channels_postReason (l : Line) (r : EmissionReason) (s : State) : (postReason l r s).channels = s.channels :=
  channels_of_feed (lessFeed_postReason l r s)

theorem channels_saturationTest (l : Line) (b : Nat) (r : Reagent) (s : State) :
    (saturationTest l b r s).channels = s.channels := by
  unfold saturationTest
  dsimp only
  split
  · split
    · exact channels_postReason l .saturation _
    · rfl
  · split <;> rfl

theorem channels_exceedEpisode (l : Line) (p : Pollutant) (b v : Nat) (s : State) :
    (exceedEpisode l p b v s).channels = s.channels := by
  unfold exceedEpisode
  split <;> rfl

theorem channels_closeEpisode (l : Line) (p : Pollutant) (b : Nat) (s : State) :
    (closeEpisode l p b s).channels = s.channels := by
  unfold closeEpisode
  split <;> rfl

theorem channels_halfHourClose (l : Line) (b : Nat) (p : Pollutant) (s : State) :
    (halfHourClose l b p s).channels = s.channels := by
  unfold halfHourClose
  cases halfHourValue (s.pollutantOf l p).means with
  | none => rfl
  | some v =>
    dsimp only
    split
    · exact channels_exceedEpisode l p b v _
    · exact channels_closeEpisode l p b _

theorem channels_halfHourCloses (l : Line) (b : Nat) (s : State) : (halfHourCloses l b s).channels = s.channels := by
  have closed := inTurn_keeps State.channels Pollutant.all (halfHourClose l b) (channels_halfHourClose l b) s
  unfold halfHourCloses
  dsimp only
  split
  · exact closed
  · refine Eq.trans (channels_of_feed (lessFeed_postBudget l _)) (Eq.trans ?_ closed)
    split
    · exact channels_postReason l .episodeCap _
    · rfl

theorem channels_dayClose (l : Line) (b : Nat) (p : Pollutant) (s : State) :
    (dayClose l b p s).channels = s.channels := by
  unfold dayClose
  dsimp only
  split <;> rfl

theorem channels_boundaryClose (l : Line) (s : State) : (boundaryClose l s).channels = s.channels := by
  have half (b : Nat) (s : State) : (if b % 1800 = 0 then halfHourCloses l b s else s).channels = s.channels := by
    split
    · exact channels_halfHourCloses l b s
    · rfl
  have day (b : Nat) (s : State) :
      (if b % 86400 = 0 then inTurn Pollutant.all (dayClose l b) s else s).channels = s.channels := by
    split
    · exact inTurn_keeps State.channels _ _ (channels_dayClose l b) s
    · rfl
  exact (day _ _).trans <| (half _ _).trans <|
    (inTurn_keeps State.channels Reagent.all _ (channels_saturationTest l _) _).trans
      (inTurn_keeps State.channels Pollutant.all (blockClose l _) (fun _ _ => rfl) _)

theorem channels_averagerTick (l : Line) (s : State) : (averagerTick l s).channels = s.channels := by
  unfold averagerTick
  split
  · exact channels_asEvent (channels_boundaryClose l) s
  · rfl

theorem channels_averagerTimeSet (l : Line) (s : State) : (averagerTimeSet l s).channels = s.channels := by
  unfold averagerTimeSet
  split
  · exact channels_averagerTick l s
  · exact inTurn_keeps State.channels _ _ (fun _ _ => by rfl) _

/-! ### The clock -/

theorem channels_takeTick (u : TickUnit) (s : State) : (takeTick u s).channels = s.channels := by
  cases u with
  | feed l => exact channels_asEvent (act := feedTick l) (fun s => channels_of_feed (lessFeed_feedTick l s)) s
  | averager l => exact channels_asEvent (channels_averagerTick l) s
  | dispatch =>
    exact channels_asEvent (act := dispatchTick) (fun s => channels_of_load (lessLoad_dispatchTick s)) s
  | runback => exact channels_asEvent channels_runbackTick s
  | limits => exact channels_asEvent channels_scrubTick s

theorem channels_takeOwedTick (u : TickUnit) (s : State) : (takeOwedTick u s).channels = s.channels := by
  unfold takeOwedTick
  split
  · exact channels_takeTick u _
  · rfl

theorem channels_settleTick (s : State) : (settleTick s).channels = s.channels :=
  inTurn_keeps State.channels _ _ channels_takeOwedTick s

theorem channels_secondTick (order : List TickUnit) (s : State) : (secondTick order s).channels = s.channels := by
  refine unlessHeld_keeps State.channels (fun s => ?_) s
  have settled := channels_settleTick s
  generalize settleTick s = u at settled ⊢
  exact (inTurn_keeps State.channels order takeOwedTick channels_takeOwedTick _).trans settled

theorem channels_tickBrings (u : TickUnit) (falls : State → Bool) (s : State) :
    (tickBrings u falls s).channels = s.channels := by
  refine unlessHeld_keeps State.channels (fun s => ?_) s
  split
  · exact channels_takeOwedTick u s
  · rfl

theorem channels_setTime (time : Nat) (s : State) : (setTime time s).2.channels = s.channels := by
  unfold setTime
  split
  · have settled := channels_settleTick s
    generalize settleTick s = u at settled ⊢
    refine (inAnyOrder_keeps State.channels channels_choose _ (fun act hact => ?_) _).trans settled
    simp only [List.mem_cons, List.not_mem_nil, or_false] at hact
    rcases hact with rfl | rfl | rfl
    · exact channels_averagerTimeSet .one
    · exact channels_averagerTimeSet .two
    · exact fun s => channels_of_load (lessLoad_dispatchTimeSet s)
  · rfl

/-! ### Limit changes -/

/-- What an action of a job leaves (R57). -/
theorem lessUpdates_of_jobAction {act : State → State} (h : JobAction act) (s : State) :
    (act s).lessUpdates = s.lessUpdates := by
  cases h with
  | furnace l => exact jobsKeep_lessUpdates.furnace l s
  | position l e v fresh => exact jobsKeep_lessUpdates.position l e v fresh s
  | sample l p v fresh => exact jobsKeep_lessUpdates.sample l p v fresh s
  | steam => exact jobsKeep_lessUpdates.steam s
  | turbine => exact jobsKeep_lessUpdates.turbine s
  | bypass => exact jobsKeep_lessUpdates.bypass s
  | drum l => exact jobsKeep_lessUpdates.drum l s
  | cap => exact jobsKeep_lessUpdates.cap s
  | trip l fromReading => exact jobsKeep_lessUpdates.trip l fromReading s

theorem channels_jobAction {act : State → State} (h : JobAction act) (s : State) : (act s).channels = s.channels :=
  channels_of_updates (lessUpdates_of_jobAction h s)

theorem channels_deliverLimit (i : LimitId) (s : State) : (deliverLimit i s).channels = s.channels := by
  cases i with
  | line l k =>
    cases k with
    | furnaceMin => exact channels_jobAction (.furnace l) s
    | furnaceHyst => exact channels_jobAction (.furnace l) s
    | bedCeiling => exact channels_of_feed (lessFeed_releaseCheck l s)
    | strokeCharge => exact channels_of_feed (lessFeed_releaseCheck l s)
    | episodeCap =>
      unfold deliverLimit episodeCapChange
      dsimp only
      split
      · exact channels_postReason l .episodeCap s
      · rfl
    | hhLimit p =>
      unfold deliverLimit hhLimitChange
      dsimp only
      split
      · exact channels_of_updates (lessUpdates_setBand l p _ s)
      · rfl
    | budget => exact channels_of_feed (lessFeed_postBudget l s)
    | drumLow =>
      refine deliver_keeps State.channels channels_choose _ (fun q hq act hact => channels_jobAction ?_) s
      simp only [List.mem_cons, List.not_mem_nil, or_false] at hq
      rcases hq with rfl | rfl
      · exact List.mem_singleton.mp hact ▸ .steam
      · exact jobAction_of_drum hact
    | drumLowLow => exact channels_jobAction (.trip l false) s
    | drumGrace => exact channels_graceChange l s
    | burnRate => rfl
    | strokeTol => rfl
    | o2Ref => rfl
    | dayLimit _ => rfl
  | plant k =>
    cases k with
    | maxLoad =>
      refine inAnyOrder_keeps State.channels channels_choose _ (fun act hact => ?_) s
      simp only [List.mem_cons, List.not_mem_nil, or_false] at hact
      rcases hact with rfl | rfl
      · exact fun s => channels_of_load (lessLoad_recomputeAllowed .routine s)
      · exact channels_runbackMaxLoad
    | steamFactor => exact channels_jobAction .steam s
    | blockMinSamples => rfl
    | dayMinValid => rfl

theorem channels_writeLimit (i : LimitId) (e : LimitEntry) (s : State) : (writeLimit i e s).channels = s.channels := by
  unfold writeLimit
  dsimp only
  split
  · rfl
  · exact channels_deliverLimit i _

theorem channels_setLimit (index : Nat) (v : Int) (s : State) : (setLimit index v s).2.channels = s.channels := by
  unfold setLimit
  split
  · rfl
  · dsimp only
    split_ifs
    · rfl
    · rfl
    · exact channels_writeLimit _ _ s

theorem channels_setOverride (index : Nat) (v : Int) (s : State) : (setOverride index v s).2.channels = s.channels := by
  unfold setOverride
  split
  · rfl
  · dsimp only
    split_ifs
    · rfl
    · rfl
    · rfl
    · rfl
    · exact channels_writeLimit _ _ s

theorem channels_clearOverride (index : Nat) (s : State) : (clearOverride index s).2.channels = s.channels := by
  unfold clearOverride
  split
  · rfl
  · dsimp only
    split_ifs
    · rfl
    · rfl
    · rfl
    · exact channels_writeLimit _ _ s

theorem channels_freeze (s : State) : (freeze s).2.channels = s.channels := by
  unfold freeze
  split_ifs <;> rfl

/-! ### Orders and frames -/

theorem channels_handleOrder (f : Frame) (s : State) : (handleOrder f s).channels = s.channels := by
  have scheduled (o : Order) : (schedule o s).1.channels = s.channels := by
    unfold schedule
    split_ifs <;> rfl
  have handled : (orderHandled f.payload s).1.channels = s.channels := by
    unfold orderHandled
    dsimp only
    split
    · exact Eq.trans (channels_of_load ((lessLoad_recomputeAllowed .routine _).trans (lessLoad_activate _)))
        (scheduled _)
    · split <;> rfl
    · rfl
    · rfl
  have acked (u : State) (st : AckStatus) : (orderAck f.src (u16At f.payload 0) st u).channels = u.channels := by
    unfold orderAck
    split
    · rename_i he
      exact channels_of_notices (lessNotices_enterOrigin he)
    · rfl
  unfold handleOrder
  dsimp only
  split
  · exact (acked _ _).trans handled
  · exact (acked _ _).trans handled
  · exact (acked _ _).trans handled

theorem channels_forwardAs (p : PortId) (f : Frame) (d : Disposition) (src : Option CaptureSource) (s : State) :
    (forwardAs p f d src s).after.channels = s.channels :=
  channels_of_origins (lessOrigins_forwardAs p f d src s)

theorem channels_carry (p : PortId) (f : Frame) (s : State) : (carry p f s).after.channels = s.channels := by
  unfold carry
  split
  · exact channels_forwardAs _ _ _ _ s
  · exact channels_forwardAs _ _ _ _ s

theorem channels_applyVerdict (f : Frame) (v : Verdict) (s : State) :
    (applyVerdict f v s).after.channels = s.channels := by
  cases v with
  | unchanged => exact channels_forwardAs _ _ _ _ s
  | rewritten w => exact channels_forwardAs _ _ _ _ s
  | absorbStroke l n =>
    unfold applyVerdict strokeArrives
    dsimp only
    split
    · exact channels_of_feed (lessFeed_releaseCheck l _)
    · rfl
  | absorbStop l => exact channels_of_feed (lessFeed_abortStroke l _)
  | withhold => rfl

theorem channels_guardFrame (f : Frame) (s : State) : (guardFrame f s).after.channels = s.channels := by
  unfold guardFrame
  split
  · exact channels_applyVerdict f .withhold s
  · split
    · exact channels_applyVerdict f .unchanged _
    · exact channels_applyVerdict f _ s

end Sys2Proof.Machine
end

section
/-! SUPPORT. The channel table under the bodies of requests that write none of its records. -/

namespace Sys2Proof.Machine

/-! ### WRITE_ENTRY and DELETE_ENTRY -/

theorem channels_writeMatchBody (args : List Byte) (s : State) : (writeMatchBody args s).after.channels = s.channels := by
  unfold writeMatchBody
  split
  · rfl
  · split <;> rfl

theorem channels_readTableBody (args : List Byte) (s : State) : (readTableBody args s).after.channels = s.channels := by
  unfold readTableBody
  dsimp only
  split
  · rfl
  · split <;> rfl

theorem channels_ramWritten (entry : Nat) (old : Option Actuator) (new : Actuator) (s : State) :
    (ramWritten entry old new s).channels = s.channels := by
  unfold ramWritten
  split
  · split
    · rfl
    · refine inTurn_keeps State.channels _ _ (fun l s => ?_) s
      split
      · exact channels_of_feed (lessFeed_ramChange l s)
      · rfl
  · rfl

theorem channels_actuatorWriteBounds (entry : Nat) (before : Option Actuator) (s : State) :
    (actuatorWriteBounds entry before s).channels = s.channels := by
  have rewritten (n : Nat) (b : Bound) : (s.rewrite n b).1.channels = s.channels :=
    channels_of_origins (lessOrigins_rewrite s n b)
  unfold actuatorWriteBounds
  split
  · dsimp only
    split_ifs
    · exact Eq.trans (channels_of_origins (lessOrigins_floorRise entry _ _)) (rewritten _ _)
    · exact rewritten _ _
    · rfl
    · exact rewritten _ _
    · rfl
  · rfl

theorem channels_writeActuatorBody (args : List Byte) (s : State) :
    (writeActuatorBody args s).after.channels = s.channels := by
  unfold writeActuatorBody
  dsimp only
  split
  · rfl
  · split
    · rfl
    · split_ifs
      · rfl
      · rfl
      · rfl
      · rfl
      · rfl
      · exact (channels_actuatorWriteBounds _ _ _).trans (channels_ramWritten _ _ _ _)

theorem channels_deleteActuatorBody (args : List Byte) (s : State) :
    (deleteActuatorBody args s).after.channels = s.channels := by
  unfold deleteActuatorBody
  dsimp only
  split
  · rfl
  · split
    · rfl
    · split <;> rfl

/-- What a change of line roles has the jobs do: actions of theirs, and the line's own at a change of its rams (R59, R60). -/
theorem lessUpdates_lineRebound (l : Line) (old new : LineBinding) (s : State) :
    (lineRebound l old new s).lessUpdates = s.lessUpdates := by
  have job {a act : State → State} (ha : act ∈ [a]) (hj : JobAction a) : ∀ s, (act s).lessUpdates = s.lessUpdates :=
    List.mem_singleton.mp ha ▸ lessUpdates_of_jobAction hj
  refine deliver_keeps State.lessUpdates jobsKeep_lessUpdates.choose _ (fun q hq act hact => ?_) s
  simp only [List.mem_cons, List.not_mem_nil, or_false] at hq
  rcases hq with rfl | rfl | rfl | rfl | rfl
  · exact job (mem_whenChanged hact) (.furnace l)
  · split at hact
    · exact List.mem_singleton.mp hact ▸ fun s => lessUpdates_of_plant (lessPlant_of_feed (lessFeed_ramChange l s))
    · cases hact
  · exact (List.mem_append.mp hact).elim (fun ha => job (mem_whenChanged ha) .steam)
      fun ha => job (mem_whenChanged ha) .steam
  · exact lessUpdates_of_jobAction (jobAction_of_drum (mem_whenChanged hact))
  · exact job (mem_whenChanged hact) (.trip l false)

theorem channels_lineRebound (l : Line) (old new : LineBinding) (s : State) :
    (lineRebound l old new s).channels = s.channels :=
  channels_of_updates (lessUpdates_lineRebound l old new s)

theorem channels_writeLineBinding (l : Line) (rec : List Byte) (s : State) :
    (writeLineBinding l rec s).after.channels = s.channels := by
  unfold writeLineBinding
  dsimp only
  split_ifs
  · rfl
  · rfl
  · rfl
  · rfl
  · exact channels_lineRebound l _ _ _
  · exact channels_lineRebound l _ _ _

/-- What a change of the plant's status roles has the dispatch unit do (R60). -/
theorem jobAction_of_statusRoles {old new old' new' : Option Nat} {act : State → State}
    (h : act ∈ whenChanged old new [dispatchTurbine] ++ whenChanged old' new' [dispatchBypass]) : JobAction act := by
  rcases List.mem_append.mp h with ha | ha
  · exact List.mem_singleton.mp (mem_whenChanged ha) ▸ .turbine
  · exact List.mem_singleton.mp (mem_whenChanged ha) ▸ .bypass

theorem channels_bindingSized (r : Request) (s : State) : (bindingSized r s).after.channels = s.channels := by
  have written (args : List Byte) : (writeBindingBody args s).after.channels = s.channels := by
    unfold writeBindingBody
    split
    · split
      · rfl
      · refine deliver_keeps State.channels channels_choose _ (fun q hq act hact => channels_jobAction ?_) _
        exact jobAction_of_statusRoles (List.mem_singleton.mp hq ▸ hact)
    · exact channels_writeLineBinding .one _ s
    · exact channels_writeLineBinding .two _ s
    · rfl
  unfold bindingSized
  generalize (if indexArg r.args = 0 then 6 else 25) = n
  split
  · exact written r.args
  · rfl

theorem channels_writeFeedSettingsBody (args : List Byte) (s : State) :
    (writeFeedSettingsBody args s).after.channels = s.channels := by
  unfold writeFeedSettingsBody
  dsimp only
  split
  · rfl
  · split <;> rfl

theorem channels_writeRunbackBody (args : List Byte) (s : State) :
    (writeRunbackBody args s).after.channels = s.channels := by
  unfold writeRunbackBody
  dsimp only
  split_ifs <;> rfl

theorem channels_followAllowed (s : State) : (followAllowed s).channels = s.channels :=
  channels_of_origins (lessOrigins_followAllowed s)

theorem channels_writeDispatchBody (args : List Byte) (s : State) :
    (writeDispatchBody args s).after.channels = s.channels := by
  unfold writeDispatchBody
  dsimp only
  split_ifs
  · rfl
  · rfl
  · exact channels_followAllowed _
  · rfl

theorem channels_writeNotices (station set : Nat) (s : State) : (writeNotices station set s).channels = s.channels := by
  refine inTurn_keeps State.channels _ _ (fun c s => ?_) _
  split
  · exact channels_of_notices (lessNotices_noticeOccasion c s)
  · rfl

theorem channels_writeNoticesBody (args : List Byte) (s : State) :
    (writeNoticesBody args s).after.channels = s.channels := by
  unfold writeNoticesBody
  dsimp only
  split_ifs
  · rfl
  · rfl
  · exact channels_writeNotices _ _ s

theorem channels_setNoticesBody (args : List Byte) (s : State) : (setNoticesBody args s).after.channels = s.channels := by
  unfold setNoticesBody
  dsimp only
  split
  · rfl
  · exact channels_writeNotices _ _ s

/-! ### Requests that write no table record -/

/-- A request on a line reads from the state what its body does on each line. -/
theorem onLine_reads {β : Type} {read : State → β} {args : List Byte} {s : State} {body : Line → Answer}
    (h : ∀ l, read (body l).after = read s) : read (onLine args s body).after = read s := by
  unfold onLine
  split
  · exact h _
  · rfl

theorem channels_enableRamBody (args : List Byte) (s : State) : (enableRamBody args s).after.channels = s.channels := by
  unfold enableRamBody
  dsimp only
  split
  · rfl
  · split
    · rfl
    · split_ifs
      · rfl
      · rfl
      · exact channels_ramWritten _ _ _ _

theorem channels_holdFeedBody (args : List Byte) (s : State) : (holdFeedBody args s).after.channels = s.channels := by
  refine onLine_reads (read := State.channels) fun l => ?_
  split
  · rfl
  · exact channels_of_feed (lessFeed_addHold l .manual s)

theorem channels_clearHoldBody (args : List Byte) (s : State) : (clearHoldBody args s).after.channels = s.channels := by
  refine onLine_reads (read := State.channels) fun l => ?_
  split
  · rfl
  · split
    · exact channels_of_feed (lessFeed_removeHold l .manual s)
    · rfl
  · unfold clearEmission
    split_ifs
    · rfl
    · rfl
    · exact channels_of_feed (lessFeed_removeHold l .emission _)
  · split <;> rfl

theorem channels_tripBody (args : List Byte) (s : State) : (tripBody args s).after.channels = s.channels := by
  refine onLine_reads (read := State.channels) fun l => ?_
  split
  · rfl
  · exact channels_addTripCause l .manual s

theorem channels_tripResetBody (args : List Byte) (s : State) : (tripResetBody args s).after.channels = s.channels :=
  onLine_reads (read := State.channels) fun l => channels_of_plant ((calm_lessPlant s).tripReset l rfl)

theorem channels_stopRunbackBody (args : List Byte) (s : State) :
    (stopRunbackBody args s).after.channels = s.channels := by
  unfold stopRunbackBody
  split_ifs
  · rfl
  · rfl
  · exact channels_envelopeIdle s

theorem channels_newYearBody (args : List Byte) (s : State) : (newYearBody args s).after.channels = s.channels :=
  onLine_reads (read := State.channels) fun _ => rfl

theorem channels_readCaptureBody (args : List Byte) (s : State) :
    (readCaptureBody args s).after.channels = s.channels := by
  unfold readCaptureBody
  dsimp only
  split
  · rfl
  · split
    · rfl
    · split <;> rfl

theorem channels_releaseCaptureBody (args : List Byte) (s : State) :
    (releaseCaptureBody args s).after.channels = s.channels := by
  unfold releaseCaptureBody
  dsimp only
  split
  · rfl
  · split <;> rfl

theorem channels_clearAttentionBody (args : List Byte) (s : State) :
    (clearAttentionBody args s).after.channels = s.channels := by
  unfold clearAttentionBody
  dsimp only
  split_ifs <;> rfl

theorem channels_clearPortErrorsBody (args : List Byte) (s : State) :
    (clearPortErrorsBody args s).after.channels = s.channels := by
  unfold clearPortErrorsBody
  dsimp only
  split <;> rfl

end Sys2Proof.Machine
end

section
/-! SUPPORT. The roster, the points that the channels hold (section 3.2): every command but the owners of the point map and
the resets that clear it leaves it, since a channel's record is otherwise replaced by one of the same point. -/

namespace Sys2Proof.Machine

/-- The point that each channel holds, `none` being UNSET. -/
def State.roster (s : State) : List (Option Nat) := s.channels.map (Option.map Channel.point)

theorem roster_of_channels {s t : State} (h : t.channels = s.channels) :
    t.roster = s.roster := congrArg (List.map (Option.map Channel.point)) h

theorem roster_getElem? (s : State) (x : Nat) : s.roster[x]? = s.channels[x]?.map (Option.map Channel.point) :=
  List.getElem?_map

theorem channel_eq_some {s : State} {x : Nat} {c : Channel} : s.channel x = some c ↔ s.channels[x]? = some (some c) := by
  unfold State.channel
  rw [List.getD_eq_getElem?_getD]
  cases s.channels[x]? <;> simp

theorem roster_eq_some {s : State} {x point : Nat} :
    s.roster[x]? = some (some point) ↔ ∃ c, s.channel x = some c ∧ c.point = point := by
  simp [roster_getElem?, channel_eq_some]

theorem roster_setChannel (s : State) (x : Nat) (c : Option Channel) :
    (s.setChannel x c).roster = s.roster.set x (c.map Channel.point) :=
  List.map_set

/-- A record replaced by one of the same point. -/
theorem roster_setChannel_same {s : State} {x : Nat} {c d : Channel} (h : s.channel x = some c) (hp : d.point = c.point) :
    (s.setChannel x (some d)).roster = s.roster := by
  rw [roster_setChannel]
  refine List.ext_getElem? fun y => ?_
  rw [List.getElem?_set]
  split
  · rename_i hxy
    have hx : s.roster[x]? = some (some c.point) := roster_eq_some.mpr ⟨c, h, rfl⟩
    obtain ⟨hlt, -⟩ := List.getElem?_eq_some_iff.mp hx
    rw [if_pos hlt, ← hxy, hx, Option.map_some, hp]
  · rfl

/-! ### What writes a channel's record -/

theorem point_take (c : Channel) (r : Reading) (time : Nat) : (c.take r time).point = c.point := by
  unfold Channel.take
  dsimp only
  split
  · unfold Channel.goodReading
    dsimp only
    split <;> rfl
  · unfold Channel.badReading
    split <;> rfl
  · unfold Channel.calibratingReading
    dsimp only
    split <;> rfl

theorem point_swept (c : Channel) : c.swept.point = c.point := by
  unfold Channel.swept
  split_ifs <;> rfl

theorem point_rewritten (c : Channel) (f : PointFields) : (c.rewritten f).point = c.point := by
  unfold Channel.rewritten
  dsimp only
  split_ifs <;> rfl

theorem roster_takeReading (r : Reading) (s : State) : (takeReading r s).roster = s.roster := by
  unfold takeReading
  split
  · split
    · rename_i hc
      exact (roster_of_channels (channels_postFrom _ _ _ _)).trans (roster_setChannel_same hc (point_take _ _ _))
    · rfl
  · rfl

theorem roster_noticesSince (before s : State) : (noticesSince before s).roster = s.roster :=
  roster_of_channels (channels_noticesSince before s)

theorem roster_takeSample (payload : List Byte) (s : State) : (takeSample payload s).roster = s.roster :=
  takeSample_keeps State.roster (fun _ _ => rfl) roster_noticesSince roster_takeReading payload s

theorem roster_checkChannel (i : Nat) (s : State) : (checkChannel i s).roster = s.roster := by
  unfold checkChannel
  split
  · rfl
  · rename_i c hc
    split
    · exact (roster_of_channels (channels_postFrom _ _ _ _)).trans (roster_setChannel_same hc (point_swept c))
    · exact roster_setChannel_same hc (point_swept c)

theorem roster_checkChannels (first past : Nat) (s : State) : (checkChannels first past s).roster = s.roster :=
  inTurn_keeps State.roster _ _ (fun i s => (roster_noticesSince s _).trans (roster_checkChannel i s)) s

/-! ### Sweeps -/

theorem roster_takeOwedSweep (u : SweepUnit) (s : State) : (takeOwedSweep u s).roster = s.roster := by
  unfold takeOwedSweep
  split
  · cases u with
    | channels => exact roster_checkChannels _ _ _
    | trip l => exact roster_of_channels (channels_asEvent (channels_tripSweep l) _)
  · rfl

theorem roster_settleSweep (s : State) : (settleSweep s).roster = s.roster :=
  inTurn_keeps State.roster _ _ roster_takeOwedSweep s

theorem roster_sweep (order : List SweepUnit) (s : State) : (sweep order s).roster = s.roster := by
  refine unlessHeld_keeps State.roster (fun s => ?_) s
  have settled := roster_settleSweep s
  generalize settleSweep s = u at settled ⊢
  exact (inTurn_keeps State.roster order takeOwedSweep roster_takeOwedSweep _).trans settled

theorem roster_channelLost (x : Nat) (s : State) : (channelLost x s).roster = s.roster := by
  refine unlessHeld_keeps State.roster (fun s => ?_) s
  dsimp only
  split_ifs
  · exact roster_checkChannels _ _ _
  · rfl

theorem roster_drumGraceExpiry (l : Line) (s : State) : (drumGraceExpiry l s).roster = s.roster := by
  refine unlessHeld_keeps State.roster (fun s => ?_) s
  split
  · exact roster_takeOwedSweep _ s
  · rfl

theorem roster_settleAll (s : State) : (settleAll s).roster = s.roster :=
  (roster_settleSweep _).trans (roster_of_channels (channels_settleTick s))

/-! ### Arrivals -/

theorem roster_actOn (a : Action) (p : PortId) (f : Frame) (s : State) : (actOn a p f s).after.roster = s.roster := by
  cases a with
  | forward => exact roster_of_channels (channels_carry p f s)
  | drop => rfl
  | samples =>
    unfold actOn
    dsimp only
    split
    · exact (roster_of_channels (channels_forwardAs _ _ _ _ _)).trans (roster_takeSample _ s)
    · exact roster_of_channels (channels_carry p f s)
  | guard =>
    unfold actOn
    dsimp only
    split
    · exact roster_of_channels (channels_guardFrame f s)
    · exact roster_of_channels (channels_forwardAs _ _ _ _ s)

theorem roster_matchFrame (p : PortId) (bytes : List Byte) (f : Frame) (s : State) :
    (matchFrame p bytes f s).roster = s.roster := by
  have finished (slot : Option CaptureSource) (x : Decided) : (finishArrival p bytes slot x).roster = x.after.roster :=
    roster_of_channels (congrArg Intake.channels (intake_finishArrival p bytes slot x))
  unfold matchFrame
  split
  · exact (finished _ _).trans (roster_of_channels (channels_carry p f s))
  · exact (finished _ _).trans (roster_actOn _ p f s)

theorem roster_classify (p : PortId) (bytes : List Byte) (f : Frame) (s : State) :
    (classify p bytes f s).roster = s.roster := by
  unfold classify
  split
  · split
    · unfold requestArrives
      split <;> rfl
    · split
      · unfold orderArrives
        split
        · exact roster_of_channels (channels_handleOrder f s)
        · rfl
      · rfl
  · exact roster_matchFrame p bytes f s

theorem roster_frameArrival (p : PortId) (bytes : List Byte) (s : State) :
    (frameArrival p bytes s).roster = s.roster := by
  refine unlessHeld_keeps State.roster (fun s => (roster_noticesSince s _).trans ?_) s
  split
  · rfl
  · split
    · rfl
    · split
      · rfl
      · exact roster_classify p bytes _ s

/-! ### Executions of requests -/

/-- What a body keeps of the points held, the execution of its row keeps. -/
theorem roster_serve {body : Request → State → Answer} (h : ∀ r s, (body r s).after.roster = s.roster) (row : Instr)
    (s : State) : (serve row body s).roster = s.roster := by
  unfold serve
  split
  · rename_i r rest _
    exact (roster_noticesSince _ (body r (s.beginExecution rest)).after).trans (h r _)
  · rfl

theorem roster_serve_sized {body : List Byte → State → Answer} (h : ∀ args s, (body args s).after.roster = s.roster)
    (row : Instr) (n : Nat) (s : State) : (serve row (sized n body) s).roster = s.roster := by
  refine roster_serve (fun r s => ?_) row s
  unfold sized
  split
  · exact h _ s
  · rfl

theorem roster_captureOffer (o : CaptureRecord) (s : State) : (captureOffer o s).roster = s.roster :=
  read_of_erased State.lessCapture (fun _ => rfl) (lessCapture_captureOffer o s)

theorem roster_serve_confirmed {body : List Byte → State → Answer} (h : ∀ args s, (body args s).after.roster = s.roster)
    (row : Instr) (n : Nat) (s : State) : (serve row (confirmed n body) s).roster = s.roster := by
  refine roster_serve (fun r s => ?_) row s
  unfold confirmed
  split
  · rfl
  · split
    · exact h _ s
    · exact roster_captureOffer _ s

theorem roster_pointUpdateBody (args : List Byte) (s : State) : (pointUpdateBody args s).after.roster = s.roster := by
  have posted {x : Nat} {c : Channel} (f : PointFields) (hc : s.channel x = some c) :
      (s.setChannel x (some (c.rewritten f))).roster = s.roster := roster_setChannel_same hc (point_rewritten c f)
  unfold pointUpdateBody
  split
  · split
    · rename_i hc
      dsimp only
      split_ifs
      · rfl
      · exact (roster_of_channels (channels_postFrom _ _ _ _)).trans (posted _ hc)
      · exact (roster_of_channels (channels_postUpdates _ _ _ _)).trans (posted _ hc)
      · exact posted _ hc
    · rfl
  · rfl

/-- A request on a channel that gives it another state of the same point. -/
theorem roster_onChannel {args : List Byte} {s : State} {body : Nat → Channel → Answer}
    (h : ∀ x c, s.channel x = some c → (body x c).after.roster = s.roster) :
    (onChannel args s body).after.roster = s.roster := by
  unfold onChannel
  dsimp only
  split
  · rfl
  · split
    · rename_i hc
      exact h _ _ hc
    · rfl

theorem roster_changeChannel {x : Nat} {c d : Channel} {s : State} (hc : s.channel x = some c) (hp : d.point = c.point) :
    (changeChannel x d s).after.roster = s.roster :=
  (roster_of_channels (channels_postFrom _ _ _ _)).trans (roster_setChannel_same hc hp)

theorem roster_setChannelServiceBody (args : List Byte) (s : State) :
    (setChannelServiceBody args s).after.roster = s.roster := by
  refine roster_onChannel fun x c hc => ?_
  split
  · exact roster_changeChannel hc rfl
  · exact roster_changeChannel hc rfl
  · rfl

theorem roster_rearmChannelBody (args : List Byte) (s : State) : (rearmChannelBody args s).after.roster = s.roster := by
  refine roster_onChannel fun x c hc => ?_
  split
  · exact roster_changeChannel hc rfl
  · rfl

/-! ### Links and transmissions -/

theorem roster_linkDown (p : PortId) (s : State) : (linkDown p s).roster = s.roster :=
  unlessHeld_keeps State.roster (fun _ => by rfl) s

theorem roster_linkUp (p : PortId) (s : State) : (linkUp p s).roster = s.roster :=
  unlessHeld_keeps State.roster (fun _ => by split <;> rfl) s

theorem roster_transmissionStart (p : PortId) (s : State) : (transmissionStart p s).roster = s.roster :=
  unlessHeld_keeps State.roster (fun _ => by rfl) s

theorem roster_transmissionCompletion (p : PortId) (s : State) : (transmissionCompletion p s).roster = s.roster :=
  unlessHeld_keeps State.roster (fun _ => by split <;> rfl) s

/-! ### Resets -/

theorem roster_assertReset (s : State) : (assertReset s).roster = s.roster := by
  have writing (u : State) : (asserted u).roster = u.roster := rfl
  cases hr : s.resetAsserted with
  | true => rw [assertReset_of_held hr]
  | false => rw [assertReset_of_released hr, writing, roster_settleAll]

theorem roster_softReset (s : State) : (softReset s).roster = s.roster := by
  have soft (u : State) : (softBase u).roster = u.roster := by
    simp [State.roster, softBase, Function.comp_def, Channel.soft]
  have posts (u : State) : (restartPosts u).channels = u.channels :=
    channels_of_plant ((calm_lessPlant u).restartPosts rfl)
  rw [softReset_eq]
  exact (roster_noticesSince _ _).trans ((roster_of_channels (posts _)).trans ((soft _).trans (roster_settleAll s)))

theorem roster_restartBody (args : List Byte) (s : State) : (restartBody args s).after.roster = s.roster := by
  have answered (u : State) : (answer .done u).after = u := rfl
  rw [restartBody, answered, roster_softReset]

/-! ### Every command -/

/-- The commands that write the point map, or clear it. -/
def writesPoints : Instr → Bool
  | .powerOn _ => true
  | .lineReset _ => true
  | .pointInsert => true
  | .deleteEntryPoints => true
  | _ => false

/-- Every other command leaves the points held. -/
theorem roster_exec {c : Instr} (hc : writesPoints c = false) {s t : State} (hx : exec c s = .next t) :
    t.roster = s.roster := by
  have next {u : State} (hu : u.roster = s.roster) (he : exec c s = .next u) : t.roster = s.roster := by
    rw [he] at hx
    cases hx
    exact hu
  have kept {u : State} (hu : u.channels = s.channels) (he : exec c s = .next u) : t.roster = s.roster :=
    next (roster_of_channels hu) he
  have sized (row : Instr) (n : Nat) {body : List Byte → State → Answer}
      (hb : ∀ args s, (body args s).after.channels = s.channels) :
      (serve row (Machine.sized n body) s).roster = s.roster :=
    roster_serve_sized (fun args s => roster_of_channels (hb args s)) row n s
  have confirmed (row : Instr) (n : Nat) {body : List Byte → State → Answer}
      (hb : ∀ args s, (body args s).after.channels = s.channels) :
      (serve row (Machine.confirmed n body) s).roster = s.roster :=
    roster_serve_confirmed (fun args s => roster_of_channels (hb args s)) row n s
  cases c with
  | powerOn straps => cases hc
  | lineReset straps => cases hc
  | pointInsert => cases hc
  | deleteEntryPoints => cases hc
  | resetNAssert => exact next (roster_assertReset s) rfl
  | linkDown p => exact next (roster_linkDown p s) rfl
  | linkUp p => exact next (roster_linkUp p s) rfl
  | frameArrival p bytes => exact next (roster_frameArrival p bytes s) rfl
  | transmissionStart p => exact next (roster_transmissionStart p s) rfl
  | transmissionCompletion p => exact next (roster_transmissionCompletion p s) rfl
  | secondTick order => exact kept (channels_secondTick order s) rfl
  | strokeExpiry l => exact kept (channels_tickBrings _ _ s) rfl
  | strokeTimeout l => exact kept (channels_tickBrings _ _ s) rfl
  | settleEnd l => exact kept (channels_tickBrings _ _ s) rfl
  | orderActivation => exact kept (channels_tickBrings _ _ s) rfl
  | runbackHoldExpiry => exact kept (channels_tickBrings _ _ s) rfl
  | integrityScrub => exact kept (channels_tickBrings _ _ s) rfl
  | boundaryClose l => exact kept (channels_tickBrings _ _ s) rfl
  | storageFault code =>
    refine kept ?_ rfl
    unfold storageFault
    split <;> rfl
  | sweep order => exact next (roster_sweep order s) rfl
  | channelLost x => exact next (roster_channelLost x s) rfl
  | drumGraceExpiry l => exact next (roster_drumGraceExpiry l s) rfl
  | unknownRequest => exact next (roster_serve (fun _ _ => rfl) _ s) rfl
  | writeEntryReadOnly => exact next (roster_serve (fun _ _ => rfl) _ s) rfl
  | deleteEntryRefused => exact next (roster_serve (fun _ _ => rfl) _ s) rfl
  | readTable => exact next (sized _ _ channels_readTableBody) rfl
  | writeEntryMatch => exact next (sized _ _ channels_writeMatchBody) rfl
  | pointUpdate => exact next (roster_serve_sized roster_pointUpdateBody _ _ s) rfl
  | writeEntryActuators => exact next (sized _ _ channels_writeActuatorBody) rfl
  | writeEntryBindings => exact next (roster_serve (fun r s => roster_of_channels (channels_bindingSized r s)) _ s) rfl
  | writeEntryFeedSettings => exact next (sized _ _ channels_writeFeedSettingsBody) rfl
  | writeEntryRunback => exact next (sized _ _ channels_writeRunbackBody) rfl
  | writeEntryDispatch => exact next (sized _ _ channels_writeDispatchBody) rfl
  | writeEntryNotices => exact next (sized _ _ channels_writeNoticesBody) rfl
  | deleteEntryActuators => exact next (sized _ _ channels_deleteActuatorBody) rfl
  | setLimit => exact next (sized _ _ (body := setLimitBody) fun _ => channels_setLimit _ _) rfl
  | setOverride => exact next (sized _ _ (body := setOverrideBody) fun _ => channels_setOverride _ _) rfl
  | clearOverride => exact next (sized _ _ (body := clearOverrideBody) fun _ => channels_clearOverride _) rfl
  | freeze => exact next (confirmed _ _ (body := freezeBody) fun _ => channels_freeze) rfl
  | setTime => exact next (sized _ _ (body := setTimeBody) fun _ => channels_setTime _) rfl
  | setChannelService => exact next (roster_serve_sized roster_setChannelServiceBody _ _ s) rfl
  | rearmChannel => exact next (roster_serve_sized roster_rearmChannelBody _ _ s) rfl
  | enableRam => exact next (sized _ _ channels_enableRamBody) rfl
  | holdFeed => exact next (sized _ _ channels_holdFeedBody) rfl
  | clearHold => exact next (sized _ _ channels_clearHoldBody) rfl
  | trip => exact next (sized _ _ channels_tripBody) rfl
  | tripReset => exact next (confirmed _ _ channels_tripResetBody) rfl
  | stopRunback => exact next (sized _ _ channels_stopRunbackBody) rfl
  | newYear => exact next (confirmed _ _ channels_newYearBody) rfl
  | readStatus => exact next (sized _ _ (body := readStatusBody) fun _ _ => rfl) rfl
  | readCapture => exact next (sized _ _ channels_readCaptureBody) rfl
  | releaseCapture => exact next (sized _ _ channels_releaseCaptureBody) rfl
  | clearAttention => exact next (sized _ _ channels_clearAttentionBody) rfl
  | clearPortErrors => exact next (sized _ _ channels_clearPortErrorsBody) rfl
  | setNotices => exact next (sized _ _ channels_setNoticesBody) rfl
  | restart => exact next (roster_serve_confirmed roster_restartBody _ _ s) rfl

end Sys2Proof.Machine
end

section
/-! SUPPORT. The point map in agreement with the points that the channels hold (section 3.2), under the insert and the
deletion of a point (R45, R47). -/

namespace Sys2Proof.Machine

/-- A point map that rises, and says of 96 channels which point each holds. -/
structure Agrees (points : List (Nat × Nat)) (roster : List (Option Nat)) : Prop where
  length : roster.length = 96
  rising : points.Pairwise fun a b => a.1 < b.1
  mem : ∀ point x, (point, x) ∈ points ↔ roster[x]? = some (some point)

theorem pointsSound_iff (s : State) : s.pointsSound ↔ Agrees s.points s.roster := by
  have hl : s.roster.length = s.channels.length := List.length_map ..
  constructor
  · rintro ⟨length, rising, mem⟩
    exact ⟨hl.trans length, rising, fun point x => (mem point x).trans roster_eq_some.symm⟩
  · rintro ⟨length, rising, mem⟩
    exact ⟨hl.symm.trans length, rising, fun point x => (mem point x).trans roster_eq_some⟩

/-- An empty map and 96 UNSET channels. -/
theorem agrees_empty : Agrees [] (List.replicate 96 none) where
  length := List.length_replicate
  rising := .nil
  mem point x := by
    rw [List.getElem?_replicate]
    split <;> simp

/-! ### A new point (R45) -/

theorem mem_insertPoint {p q : Nat × Nat} {points : List (Nat × Nat)} :
    q ∈ insertPoint p points ↔ q = p ∨ q ∈ points := by
  induction points with
  | nil => simp [insertPoint]
  | cons r rest ih =>
    unfold insertPoint
    split
    · rw [List.mem_cons, ih, List.mem_cons]
      tauto
    · exact List.mem_cons

theorem rising_insertPoint {p : Nat × Nat} {points : List (Nat × Nat)} (h : points.Pairwise fun a b => a.1 < b.1)
    (hn : ∀ q ∈ points, q.1 ≠ p.1) : (insertPoint p points).Pairwise fun a b => a.1 < b.1 := by
  induction points with
  | nil => exact List.pairwise_singleton _ _
  | cons r rest ih =>
    obtain ⟨hr, hrest⟩ := List.pairwise_cons.mp h
    have hne : r.1 ≠ p.1 := hn r List.mem_cons_self
    unfold insertPoint
    split
    · rename_i hlt
      refine List.pairwise_cons.mpr ⟨fun q hq => ?_, ih hrest fun q hq => hn q (List.mem_cons_of_mem _ hq)⟩
      rcases mem_insertPoint.mp hq with rfl | hq
      · exact hlt
      · exact hr q hq
    · rename_i hle
      refine List.pairwise_cons.mpr ⟨fun q hq => ?_, h⟩
      rcases List.mem_cons.mp hq with rfl | hq
      · omega
      · have := hr q hq
        omega

/-- A point that is in no pair of the map takes an UNSET channel. -/
theorem Agrees.insert {points : List (Nat × Nat)} {roster : List (Option Nat)} (h : Agrees points roster) {point x : Nat}
    (hn : ∀ q ∈ points, q.1 ≠ point) (hx : roster[x]? = some none) :
    Agrees (insertPoint (point, x) points) (roster.set x (some point)) where
  length := List.length_set.trans h.length
  rising := rising_insertPoint h.rising hn
  mem point' x' := by
    obtain ⟨hlt, -⟩ := List.getElem?_eq_some_iff.mp hx
    rw [mem_insertPoint, List.getElem?_set, h.mem]
    by_cases hxx : x = x'
    · subst hxx
      rw [hx, if_pos rfl, if_pos hlt]
      simp [eq_comm]
    · simp [hxx, Ne.symm hxx]

/-! ### A point deleted (R47) -/

/-- A rising map names one channel for a point. -/
theorem channel_unique {points : List (Nat × Nat)} (h : points.Pairwise fun a b => a.1 < b.1) {point x y : Nat}
    (hx : (point, x) ∈ points) (hy : (point, y) ∈ points) : x = y := by
  have nodup : (points.map Prod.fst).Nodup := List.pairwise_map.mpr (h.imp Nat.ne_of_lt)
  exact (Prod.mk.inj (List.inj_on_of_nodup_map nodup hx hy rfl)).2

/-- A point leaves the map, and its channel becomes UNSET. -/
theorem Agrees.delete {points : List (Nat × Nat)} {roster : List (Option Nat)} (h : Agrees points roster) {point x : Nat}
    (hx : (point, x) ∈ points) : Agrees (points.filter fun p => p.1 ≠ point) (roster.set x none) where
  length := List.length_set.trans h.length
  rising := h.rising.filter _
  mem point' x' := by
    obtain ⟨hlt, -⟩ := List.getElem?_eq_some_iff.mp ((h.mem point x).mp hx)
    rw [List.mem_filter, List.getElem?_set, h.mem]
    by_cases hxx : x = x'
    · subst hxx
      rw [if_pos rfl, if_pos hlt, (h.mem point x).mp hx]
      simpa using fun he : point = point' => he.symm
    · rw [if_neg hxx, ← h.mem]
      refine and_iff_left_of_imp fun hmem => decide_eq_true fun hp => hxx ?_
      exact channel_unique h.rising hx (hp ▸ hmem)

/-! ### The bodies -/

theorem u16At_recordArg (args : List Byte) : u16At (recordArg args) 0 = u16At args 3 := by
  simp [u16At, byteAt, recordArg]

/-- A record of the right length on POINTS whose request is an insert names no point of the map. -/
theorem hasPoint_of_insert {s : State} {r : Request} (h : s.rowOf r = .pointInsert) (hl : r.args.length = 11) :
    s.hasPoint (u16At r.args 3) = false := by
  unfold State.rowOf at h
  split at h <;> try cases h
  · unfold State.rowOfWrite at h
    split at h
    · cases h
    · split at h <;> try cases h
      · split at h
        · cases h
        · rename_i hn
          exact Bool.eq_false_iff.mpr fun hp => hn ⟨hl, hp⟩
      · split at h <;> cases h
  · unfold rowOfDelete at h
    split at h <;> cases h

theorem pointFields_point {s : State} {rec : List Byte} {f : PointFields} (h : s.pointFields? rec = some f) :
    f.point = u16At rec 0 := by
  unfold State.pointFields? at h
  split at h
  · dsimp only at h
    split at h
    · cases h
      rfl
    · cases h
  · cases h

theorem agrees_pointInsertBody {args : List Byte} {s : State} (h : Agrees s.points s.roster)
    (hn : s.hasPoint (u16At args 3) = false) :
    Agrees (pointInsertBody args s).after.points (pointInsertBody args s).after.roster := by
  unfold pointInsertBody
  split
  · exact h
  · rename_i f hf
    split
    · exact h
    · rename_i x hx
      have hpoint : f.point = u16At args 3 := (pointFields_point hf).trans (u16At_recordArg args)
      obtain ⟨hlt, hnone, -⟩ := List.findIdx?_eq_some_iff_getElem.mp hx
      have hunset : s.roster[x]? = some none := by
        rw [roster_getElem?, List.getElem?_eq_getElem hlt, Option.isNone_iff_eq_none.mp hnone]
        rfl
      have := h.insert (point := f.point) (fun q hq he => ?_) hunset
      · rwa [show s.roster.set x (some f.point) = (s.setChannel x (some f.inserted)).roster from
          (roster_setChannel s x (some f.inserted)).symm] at this
      · have : s.hasPoint f.point = true := List.any_eq_true.mpr ⟨q, hq, beq_iff_eq.mpr he⟩
        rw [hpoint, hn] at this
        cases this

theorem mem_of_channelOfPoint {s : State} {point x : Nat} (h : s.channelOfPoint point = some x) :
    (point, x) ∈ s.points := by
  obtain ⟨q, hq, rfl⟩ := Option.map_eq_some_iff.mp h
  have hp : q.1 = point := by simpa using List.find?_some hq
  exact hp ▸ List.mem_of_find?_eq_some hq

theorem agrees_deletePointBody {args : List Byte} {s : State} (h : Agrees s.points s.roster) :
    Agrees (deletePointBody args s).after.points (deletePointBody args s).after.roster := by
  unfold deletePointBody
  split
  · exact h
  · rename_i x hx
    split
    · exact h
    · have := h.delete (mem_of_channelOfPoint hx)
      rwa [show s.roster.set x none = (s.setChannel x none).roster from (roster_setChannel s x none).symm] at this

/-- What the body of a ready request of the right length keeps of the agreement, its execution keeps. -/
theorem agrees_serve_sized {row : Instr} {n : Nat} {body : List Byte → State → Answer} {s : State}
    (h : Agrees s.points s.roster)
    (hb : ∀ r rest, Ready row r rest s → r.args.length = n →
      Agrees (body r.args (s.beginExecution rest)).after.points (body r.args (s.beginExecution rest)).after.roster) :
    Agrees (serve row (sized n body) s).points (serve row (sized n body) s).roster := by
  cases he : s.executable row with
  | none => rwa [serve_of_not_executable he]
  | some p =>
    obtain ⟨r, rest⟩ := p
    have ready := executable_eq_some he
    have placed (a : Answer) (b : State) :
        (placeReply r (a.noticed b)).points = a.after.points ∧ (placeReply r (a.noticed b)).roster = a.after.roster :=
      ⟨congrArg Intake.points (intake_noticesSince b a.after), roster_noticesSince b a.after⟩
    rw [serve_of_ready ready, (placed _ _).1, (placed _ _).2]
    unfold sized
    split
    · rename_i hl
      exact hb r rest ready hl
    · exact h

end Sys2Proof.Machine
end

section
/-! The statement on the point map. -/

namespace Sys2Proof.Machine

/-- A command that neither writes nor clears the point map leaves it as it stands. -/
theorem points_exec {c : Instr} (hc : writesPoints c = false) {s t : State} (hx : exec c s = .next t) :
    t.points = s.points := by
  cases hr : isReset c with
  | false =>
    obtain ⟨-, points, -⟩ := onlyOwnersWrite c s t hr hx
    exact points (fun he => by rw [he] at hc; cases hc) fun he => by rw [he] at hc; cases hc
  | true =>
    have stable := stable_settings Settings.points s.points
    cases c with
    | resetNAssert =>
      cases hx
      exact stable.assertReset (Q := fun t => t.points = s.points) (fun _ => rfl) (fun _ h => h) rfl
    | restart =>
      cases hx
      exact (lasting_settings Settings.points s.points).restart (fun _ h => h) rfl
    | powerOn straps => cases hc
    | lineReset straps => cases hc
    | _ => cases hr

theorem agrees_lineReset (straps : BitVec 8) (s : State) :
    Agrees (lineReset straps s).points (lineReset straps s).roster := by
  have base := (calm_lessPlant (lineBase straps (assertReset s))).postBudget .two
    ((calm_lessPlant _).postBudget .one ((calm_lessPlant _).resetScrub rfl))
  have channels : (lineReset straps s).channels = List.replicate 96 none := channels_of_plant base
  have points : (lineReset straps s).points = [] := read_of_erased State.lessPlant (fun _ => rfl) base
  rw [points, State.roster, channels, List.map_replicate]
  exact agrees_empty

/-- Settles O60: each command leaves map and roster, or inserts a pair, deletes one, or clears both. -/
theorem pointsSoundAlways : Obligations.PointsSoundAlways := by
  have commanded {c : Instr} {s t : State} (h : Agrees s.points s.roster) (hx : exec c s = .next t) :
      Agrees t.points t.roster := by
    cases hc : writesPoints c with
    | false => rwa [points_exec hc hx, roster_exec hc hx]
    | true =>
      cases c with
      | powerOn straps =>
        cases hx
        exact agrees_empty
      | lineReset straps =>
        cases hx
        exact agrees_lineReset straps s
      | pointInsert =>
        cases hx
        refine agrees_serve_sized h fun r rest ready hl => ?_
        obtain ⟨-, -, -, hrow⟩ := ready
        exact agrees_pointInsertBody (s := s.beginExecution rest) h (hasPoint_of_insert hrow hl)
      | deleteEntryPoints =>
        cases hx
        exact agrees_serve_sized h fun r rest _ _ => agrees_deletePointBody (s := s.beginExecution rest) h
      | _ => cases hc
  intro s t h hx
  rw [pointsSound_iff] at h ⊢
  unfold step at hx
  split at hx
  · rename_i rest _
    exact commanded (s := { s with pending := rest }) h hx
  · cases hx
    exact h

end Sys2Proof.Machine
end

section
/-! SUPPORT. An execution answered DONE: its REPLY, and what is left but for ports, attention unit and frame mark (R186,
R187). -/

namespace Sys2Proof.Machine

/-- The execution of a ready request whose body answers DONE and leaves the requests behind it: it is answered, and its
NOTICEs and REPLY apart the part stands as the body left it. -/
theorem serve_answered {row : Instr} {r : Request} {rest : List Request} {s u : State}
    {body : Request → State → Answer} (h : Ready row r rest s) (hb : body r (s.beginExecution rest) = answer .done u)
    (hq : u.requests = rest) (ho : u.ownStation = s.ownStation) :
    Answered r rest .done [] s.ownStation (serve row body s) ∧
      (serve row body s).lessNotices = { u.lessNotices with reservation := false } := by
  have hs : serve row body s = placeReply r ⟨.done, [], noticesSince (s.beginExecution rest) u⟩ := by
    rw [serve_of_ready h, hb]
    rfl
  have left := lessNotices_noticesSince (s.beginExecution rest) u
  rw [hs]
  generalize noticesSince (s.beginExecution rest) u = v at left
  have hr : v.requests = rest := (congrArg (fun t => t.requests) left).trans hq
  have hv : v.ownStation = s.ownStation := (congrArg (fun t => t.ownStation) left).trans ho
  refine ⟨⟨hr, rfl, v.nextMark, (v.port .supervisor).routine, ?_⟩, ?_⟩
  · rw [← hv]
    rfl
  · rw [← left]
    rfl

/-! ### The waiting requests -/

/-- No primitive write of the blocks takes a request from the queue or adds one. -/
theorem stable_requests (k : List Request) : Stable fun s => s.requests = k where
  choices _ _ _ hs := hs
  counts _ _ _ _ _ _ hs := hs
  owed _ _ _ _ hs := hs
  attention _ _ _ _ hs := hs
  enter _ _ _ _ _ _ _ he hs := (congrArg (fun t => t.requests) (lessNotices_enterOrigin he)).trans hs
  originate s pr c hs := (congrArg (fun t => t.requests) (lessOrigins_originateCommand pr c s)).trans hs
  rewrite s n b hs := (congrArg (fun t => t.requests) (lessOrigins_rewrite s n b)).trans hs
  transit s p f hs := (congrArg (fun t => t.requests) (lessOrigins_forwardAs p f .forwarded none s)).trans hs
  errors _ _ _ hs := hs
  start _ _ hs := hs
  free _ _ hs := hs
  capture _ _ hs := hs
  channel _ _ _ hs := hs
  actuator _ _ _ hs := hs
  feed _ _ _ _ hs := hs
  averager _ _ _ _ hs := hs
  exceeding s l p b v hs := by
    unfold exceedEpisode
    split <;> exact hs
  within s l p b hs := by
    unfold closeEpisode
    split <;> exact hs
  daily _ _ _ hs := hs
  dispatch _ _ _ hs := hs
  runback _ _ _ hs := hs
  trip _ _ _ hs := hs
  limits _ _ _ hs := hs

end Sys2Proof.Machine
end

section
/-! SUPPORT. The clock (R40, R41, R43): a second tick on a part that owes none, and a time-set event. -/

namespace Sys2Proof.Machine

theorem unlessHeld_of_released {s : State} (h : s.resetAsserted = false) (act : State → State) :
    unlessHeld act s = act s := if_neg (by simp [h])

/-- On a part that owes no tick a second tick is that of its units alone. -/
theorem secondTick_of_unowed {s : State} (hr : s.resetAsserted = false) (h : s.owedTick = []) (order : List TickUnit) :
    secondTick order s = inTurn order takeOwedTick
      { s with plantTime := satSucc 4294967295 s.plantTime, owedTick := TickUnit.all } := by
  have settled : settleTick s = s := inTurn_of_fixed (takeOwedTick_of_none h) _
  refine (unlessHeld_of_released hr _).trans ?_
  dsimp only
  rw [settled]

/-- A time-set event reaches the jobs in an order left open (R44). -/
def timeSetEvent (s : State) : State := inAnyOrder [averagerTimeSet .one, averagerTimeSet .two, dispatchTimeSet] s

theorem Stable.timeSetEvent {P : State → Prop} (h : Stable P) {s : State} (hs : P s) : P (timeSetEvent s) := by
  refine h.calm.inAnyOrder (fun act hact t ht => ?_) hs
  simp only [List.mem_cons, List.not_mem_nil, or_false] at hact
  rcases hact with rfl | rfl | rfl
  · exact h.averagerTimeSet .one ht
  · exact h.averagerTimeSet .two ht
  · exact h.dispatchTimeSet ht

/-- SET_TIME by its one test (R43). -/
theorem setTime_eq (time : Nat) (s : State) :
    setTime time s =
      if s.timeAccepted time then (.done, timeSetEvent { settleTick s with plantTime := time }) else (.refusedRange, s) :=
  rfl

theorem timeAccepted_iff {s : State} {time : Nat} :
    s.timeAccepted time = true ↔ s.limits.mode = .commission ∨ (time ≤ s.plantTime + 60 ∧ s.plantTime ≤ time + 60) := by
  unfold State.timeAccepted
  cases s.limits.mode <;> simp

theorem u32At_be32 {n : Nat} (h : n < 4294967296) : u32At (be32 n) 0 = n := by
  have h0 : byteAt (be32 n) 0 = n / 16777216 % 256 := u8_toNat _
  have h1 : byteAt (be32 n) 1 = n / 65536 % 256 := u8_toNat _
  have h2 : byteAt (be32 n) 2 = n / 256 % 256 := u8_toNat _
  have h3 : byteAt (be32 n) 3 = n % 256 := u8_toNat _
  rw [u32At, u16At, u16At, h0, h1, h2, h3]
  omega

end Sys2Proof.Machine
end

section
/-! The statements on the clock. -/

namespace Sys2Proof.Machine

/-- Settles O17: no unit's tick writes plant time. -/
theorem secondTickAdvancesTime : Obligations.SecondTickAdvancesTime := by
  intro order s hr ho
  refine ⟨⟨_, congrArg Host.Outcome.next (secondTick_of_unowed hr ho order), ?_⟩,
    congrArg Host.Outcome.next (secondTick_of_unowed hr ho [])⟩
  exact inTurn_holds (P := fun t => t.settings.plantTime = satSucc 4294967295 s.plantTime)
    (fun u t ht => (stable_settings Settings.plantTime _).takeOwedTick u ht) rfl

/-- SET_TIME that is accepted writes neither mode, stations, requests nor channels; plant time is the value (R43). -/
theorem setTime_accepted {time : Nat} {s : State} (h : s.timeAccepted time = true) :
    ∃ u, setTime time s = (.done, u) ∧ u.plantTime = time ∧ u.limits.mode = s.limits.mode ∧
      u.ownStation = s.ownStation ∧ u.requests = s.requests ∧ u.channels = s.channels := by
  have channels := channels_setTime time s
  have mode := (stable_settings Settings.mode s.limits.mode).settleTick (s := s) rfl
  have own := (stable_settings Settings.ownStation s.ownStation).settleTick (s := s) rfl
  have requests := (stable_requests s.requests).settleTick (s := s) rfl
  rw [setTime_eq, if_pos h] at channels ⊢
  generalize settleTick s = u at channels mode own requests
  exact ⟨_, rfl, (stable_settings Settings.plantTime time).timeSetEvent (s := { u with plantTime := time }) rfl,
    (stable_settings Settings.mode s.limits.mode).timeSetEvent (s := { u with plantTime := time }) mode,
    (stable_settings Settings.ownStation s.ownStation).timeSetEvent (s := { u with plantTime := time }) own,
    (stable_requests s.requests).timeSetEvent (s := { u with plantTime := time }) requests, channels⟩

/-- Settles O42: the ticks taken first and the time-set event write neither plant time, mode, channels nor requests. -/
theorem setTimeEffect : Obligations.SetTimeEffect := by
  intro r rest time s ready hargs ht
  have hl : r.args.length = 4 := by rw [hargs]; rfl
  have hbody : sized 4 setTimeBody r (s.beginExecution rest) = answerPair (setTime time (s.beginExecution rest)) := by
    rw [sized_of_length _ hl, setTimeBody, hargs, u32At_be32 ht]
  refine ⟨fun h => ?_, fun hm h => ?_⟩
  · have accepted : (s.beginExecution rest).timeAccepted time = true := timeAccepted_iff.mpr h
    obtain ⟨u, hu, time, mode, own, requests, channels⟩ := setTime_accepted accepted
    rw [hu] at hbody
    obtain ⟨answered, left⟩ := serve_answered ready hbody requests own
    exact ⟨_, rfl, answered, (congrArg (fun t => t.plantTime) left).trans time,
      (congrArg (fun t => t.limits.mode) left).trans mode, (congrArg (fun t => t.channels) left).trans channels⟩
  · have refused : (s.beginExecution rest).timeAccepted time = false := by
      refine Bool.eq_false_iff.mpr fun ha => ?_
      have := (timeAccepted_iff.mp ha).resolve_left (by exact hm ▸ fun he => nomatch he)
      have ht : (s.beginExecution rest).plantTime = s.plantTime := rfl
      omega
    rw [setTime_eq, refused] at hbody
    exact congrArg Host.Outcome.next (serve_refused ready hbody)

end Sys2Proof.Machine
end

section
/-! SUPPORT. The check of a channel at a sweep (R52). -/

namespace Sys2Proof.Machine

theorem checkChannel_of_unset {i : Nat} {s : State} (h : s.channel i = none) : checkChannel i s = s := by
  simp [checkChannel, h]

/-- A channel that is not lost at its check has its mark and its miss count taken. -/
theorem checkChannel_of_kept {i : Nat} {c : Channel} {s : State} (h : s.channel i = some c)
    (hc : c.lostAtSweep = false) : checkChannel i s = s.setChannel i (some c.swept) := by
  simp [checkChannel, h, hc]

/-- The state that a lost channel takes: its fallback supplies it where that is LIVE. -/
def State.lostState (s : State) (c : Channel) : ChannelState :=
  if (match c.fallback with | some f => s.isLive f | none => false) then .failedOver else .stale

/-- The check of a lost channel, up to the posting of its updates. -/
def lostRecorded (i : Nat) (c : Channel) (s : State) : State :=
  setCause .channelLost c.line i (s.setChannel i (some { c.swept with state := s.lostState c }))

theorem checkChannel_of_lost {i : Nat} {c : Channel} {s : State} (h : s.channel i = some c)
    (hc : c.lostAtSweep = true) : checkChannel i s = postFrom none false i (lostRecorded i c s) := by
  simp only [checkChannel, h, hc, if_true]
  rfl

/-- The checks of the channels below an index, none of which loses its channel, on the channel table. -/
def sweptBelow (k : Nat) (cs : List (Option Channel)) : List (Option Channel) :=
  cs.mapIdx fun i c => if i < k then c.map Channel.swept else c

theorem sweptBelow_getElem? (k i : Nat) (cs : List (Option Channel)) :
    (sweptBelow k cs)[i]? = cs[i]?.map fun c => if i < k then c.map Channel.swept else c := List.getElem?_mapIdx

theorem sweptBelow_zero (cs : List (Option Channel)) : sweptBelow 0 cs = cs :=
  List.ext_getElem? fun i => by simp [sweptBelow_getElem?]

theorem sweptBelow_length (cs : List (Option Channel)) :
    sweptBelow cs.length cs = cs.map (Option.map Channel.swept) := by
  refine List.ext_getElem? fun i => ?_
  rw [sweptBelow_getElem?, List.getElem?_map]
  rcases Nat.lt_or_ge i cs.length with hi | hi
  · simp [hi]
  · simp [List.getElem?_eq_none hi]

/-- The check of the next channel on a table whose channels below it are checked. -/
theorem checkChannel_sweptBelow {k : Nat} {s : State} (h : ∀ c, some c ∈ s.channels → c.lostAtSweep = false) :
    checkChannel k { s with channels := sweptBelow k s.channels } =
      { s with channels := sweptBelow (k + 1) s.channels } := by
  have at_k : State.channel { s with channels := sweptBelow k s.channels } k = s.channel k := by
    unfold State.channel
    rw [List.getD_eq_getElem?_getD, List.getD_eq_getElem?_getD, sweptBelow_getElem?]
    simp
  have others (i : Nat) (hi : i ≠ k) : (sweptBelow (k + 1) s.channels)[i]? = (sweptBelow k s.channels)[i]? := by
    have : i < k + 1 ↔ i < k := by omega
    simp only [sweptBelow_getElem?, this]
  cases hk : s.channel k with
  | none =>
    rw [checkChannel_of_unset (at_k.trans hk)]
    have same : sweptBelow (k + 1) s.channels = sweptBelow k s.channels := by
      refine List.ext_getElem? fun i => ?_
      rcases eq_or_ne i k with rfl | hi
      · unfold State.channel at hk
        rw [List.getD_eq_getElem?_getD] at hk
        rw [sweptBelow_getElem?, sweptBelow_getElem?]
        cases hc : s.channels[i]? with
        | none => rfl
        | some c =>
          rw [hc] at hk
          subst hk
          simp
      · exact others i hi
    rw [same]
  | some c =>
    have hc := channel_eq_some.mp hk
    rw [checkChannel_of_kept (at_k.trans hk) (h c (List.mem_of_getElem? hc))]
    have set : sweptBelow (k + 1) s.channels = (sweptBelow k s.channels).set k (some c.swept) := by
      refine List.ext_getElem? fun i => ?_
      rw [List.getElem?_set]
      rcases eq_or_ne i k with rfl | hi
      · have hl : i < (sweptBelow i s.channels).length := by
          unfold sweptBelow
          rw [List.length_mapIdx]
          exact (List.getElem?_eq_some_iff.mp hc).1
        simp [sweptBelow_getElem?, hc, hl]
      · rw [if_neg (Ne.symm hi), others i hi]
    rw [set]
    rfl

/-- A sweep's checks that lose no channel. -/
theorem checkChannels_of_kept {s : State} (h : ∀ c, some c ∈ s.channels → c.lostAtSweep = false) (k : Nat) :
    checkChannels 0 k s = { s with channels := sweptBelow k s.channels } := by
  unfold checkChannels
  simp only [Nat.zero_add, Nat.sub_zero, List.map_id']
  induction k with
  | zero => exact congrArg (fun cs => { s with channels := cs }) (sweptBelow_zero _).symm
  | succ k ih =>
    have next := checkChannel_sweptBelow (k := k) h
    have checked : asEvent (checkChannel k) { s with channels := sweptBelow k s.channels } =
        { s with channels := sweptBelow (k + 1) s.channels } := by
      rw [asEvent, next]
      exact noticesSince_of_attention rfl
    unfold inTurn at ih ⊢
    rw [List.range_succ, List.foldl_append, ih]
    exact checked

end Sys2Proof.Machine
end

section
/-! The statements on effective values and sweeps. -/

namespace Sys2Proof.Machine

/-- Settles O51: a channel supplies itself or its fallback, and only where that is LIVE. -/
theorem effectiveValueIsLive : Obligations.EffectiveValueIsLive := by
  intro x s
  have live {y : Nat} {c : Channel} (hc : s.channel y = some c) : s.isLive y = (c.state == .live) := by
    simp [State.isLive, hc]
  have unset {y : Nat} (hy : s.channel y = none) : s.isLive y = false := by simp [State.isLive, hy]
  have own {y : Nat} (hy : s.isLive y = true) : ∃ d, s.channel y = some d ∧ d.state = .live := by
    cases hd : s.channel y with
    | none => rw [unset hd] at hy; cases hy
    | some d => exact ⟨d, rfl, eq_of_beq ((live hd).symm.trans hy)⟩
  refine ⟨fun c hc hl => ?_, fun c f d hc hl hf hd hdl => ?_, fun c hc hl hf => ?_, fun hc => ?_, fun v hv => ?_⟩
  · simp [State.effective, State.supplier, live hc, hl, hc]
  · simp [State.effective, State.supplier, live hc, hl, hc, hf, live hd, hdl, hd]
  · have none_supplies : ∀ f, c.fallback = some f → s.isLive f = false := fun f hcf => by
      refine Bool.eq_false_iff.mpr fun hlf => ?_
      obtain ⟨d, hd, hdl⟩ := own hlf
      exact hf f d hcf hd hdl
    cases hcf : c.fallback with
    | none => simp [State.effective, State.supplier, live hc, hl, hc, hcf]
    | some f => simp [State.effective, State.supplier, live hc, hl, hc, hcf, none_supplies f hcf]
  · simp [State.effective, State.supplier, unset hc, hc]
  · obtain ⟨y, hy, hv⟩ := Option.bind_eq_some_iff.mp hv
    have supplies : s.isLive y = true := by
      unfold State.supplier at hy
      split_ifs at hy with hx
      · cases hy
        exact hx
      · split at hy
        · split_ifs at hy with hf
          cases hy
          exact hf
        · cases hy
    obtain ⟨d, hd, hdl⟩ := own supplies
    rw [hd] at hv
    exact ⟨y, d, hd, hdl, hv⟩

/-- Settles O24: the checks go through the channels in increasing index. -/
theorem sweepMarksChannels : Obligations.SweepMarksChannels := by
  intro s hr ho
  have settled : settleSweep s = s := inTurn_of_fixed (takeOwedSweep_of_none ho) _
  have posted (order : List SweepUnit) :
      sweep order s = inTurn order takeOwedSweep { s with owedSweep := SweepUnit.all, sweepNext := 0 } := by
    refine (unlessHeld_of_released hr _).trans ?_
    dsimp only
    rw [settled]
  have swept (c : Channel) : c.swept =
      if c.state = .outOfService then c
      else if c.seen then { c with seen := false, miss := 0 }
      else { c with miss := if c.miss < 255 then c.miss + 1 else c.miss } := by
    unfold Channel.swept
    cases c.state <;> rfl
  refine ⟨congrArg Host.Outcome.next (posted []), fun h => ?_⟩
  have taken := checkChannels_of_kept (s := { s with owedSweep := [.trip .one, .trip .two], sweepNext := 0 }) h
    s.channels.length
  refine congrArg Host.Outcome.next ((posted [.channels]).trans (Eq.trans taken ?_))
  rw [sweptBelow_length]
  simp only [← swept]

end Sys2Proof.Machine
end

section
/-! SUPPORT. Requests on points and channels: the fields of a good record (R45), and a change of a channel that is
answered DONE with its updates posted (R46, R53, R54, R56). -/

namespace Sys2Proof.Machine

theorem lineField?_lineCode (l : Option Line) : lineField? (u8 (lineCode l)).toNat = some l := by
  cases l with
  | none => rfl
  | some l => cases l <;> rfl

theorem channelClass_ofCode? (c : ChannelClass) : ChannelClass.ofCode? (u8 c.code).toNat = some c := by
  cases c <;> rfl

/-- The index field of a byte, by the byte that stands for none (R14). -/
theorem indexField_byte (b : Byte) : indexField b.toNat = if b = 255#8 then none else some b.toNat := by
  unfold indexField
  simp only [← BitVec.toNat_inj]
  rfl

/-- The fields of a request with a good POINTS record (R45). -/
theorem pointFields?_good {s : State} {args : List Byte} {i1 i0 channel warm window fallback : Byte} {point : Nat}
    {cls : ChannelClass} {l : Option Line}
    (hargs : args = [2, i1, i0] ++ be16 point ++ [channel, u8 cls.code, u8 (lineCode l), warm, window, fallback])
    (hp : point < 65536) (h1 : 1 ≤ warm.toNat) (h2 : warm.toNat ≤ 15) (h3 : 2 ≤ window.toNat)
    (h4 : window.toNat ≤ 40)
    (hf : fallback = 255#8 ∨ (fallback.toNat < 96 ∧ (s.channel fallback.toNat).isSome = true)) :
    s.pointFields? (recordArg args) =
      some ⟨point, cls, l, warm.toNat, window.toNat, if fallback = 255#8 then none else some fallback.toNat⟩ := by
  have number := u16At_payload hp [channel, u8 cls.code, u8 (lineCode l), warm, window, fallback]
  have hrec : recordArg args = be16 point ++ [channel, u8 cls.code, u8 (lineCode l), warm, window, fallback] := by
    rw [hargs]
    rfl
  rw [← hrec] at number
  generalize recordArg args = rec at hrec number ⊢
  have class_read : ChannelClass.ofCode? (byteAt rec 3) = some cls := by
    rw [hrec]
    exact channelClass_ofCode? cls
  have line_read : lineField? (byteAt rec 4) = some l := by
    rw [hrec]
    exact lineField?_lineCode l
  have warm_read : byteAt rec 5 = warm.toNat := by rw [hrec]; rfl
  have window_read : byteAt rec 6 = window.toNat := by rw [hrec]; rfl
  have fallback_read : byteAt rec 7 = fallback.toNat := by rw [hrec]; rfl
  have fits : indexFieldValid 96 fallback.toNat = true ∧
      s.fallbackFits (if fallback = 255#8 then none else some fallback.toNat) = true := by
    rcases hf with rfl | ⟨hlt, hset⟩
    · exact ⟨rfl, rfl⟩
    · have hne : fallback ≠ 255#8 := by
        rintro rfl
        exact absurd hlt (by decide)
      rw [if_neg hne]
      exact ⟨by simp [indexFieldValid, hlt], hset⟩
  unfold State.pointFields?
  rw [class_read, line_read]
  dsimp only
  rw [number, warm_read, window_read, fallback_read, indexField_byte]
  exact if_pos ⟨h1, h2, h3, h4, fits⟩

/-- A request that is answered DONE on a channel set anew, whatever the jobs do on the updates then posted. -/
theorem serve_posted {row : Instr} {r : Request} {rest : List Request} {s u : State} {x : Nat} {c : Option Channel}
    {body : Request → State → Answer} (h : Ready row r rest s) (hb : body r (s.beginExecution rest) = answer .done u)
    (hu : u.lessUpdates = ((s.beginExecution rest).setChannel x c).lessUpdates) :
    Answered r rest .done [] s.ownStation (serve row body s) ∧ (serve row body s).channels = s.channels.set x c ∧
      (serve row body s).points = s.points := by
  have requests : u.requests = ((s.beginExecution rest).setChannel x c).requests :=
    read_of_erased State.lessUpdates (fun _ => rfl) hu
  have own : u.ownStation = ((s.beginExecution rest).setChannel x c).ownStation :=
    read_of_erased State.lessUpdates (fun _ => rfl) hu
  have points : u.points = ((s.beginExecution rest).setChannel x c).points :=
    read_of_erased State.lessUpdates (fun _ => rfl) hu
  obtain ⟨answered, left⟩ := serve_answered h hb requests own
  exact ⟨answered, (congrArg (fun t => t.channels) left).trans (channels_of_updates hu),
    (congrArg (fun t => t.points) left).trans points⟩

/-- A request that puts a channel into a new state. -/
theorem serve_changeChannel {row : Instr} {r : Request} {rest : List Request} {s : State} {x : Nat} {c : Channel}
    {body : Request → State → Answer} (h : Ready row r rest s)
    (hb : body r (s.beginExecution rest) = changeChannel x c (s.beginExecution rest)) :
    Answered r rest .done [] s.ownStation (serve row body s) ∧
      (serve row body s).channels = s.channels.set x (some c) ∧ (serve row body s).points = s.points :=
  serve_posted h hb (jobsKeep_lessUpdates.postFrom none false x _)

/-! ### The update of a point (R46) -/

theorem pointUpdateBody_own {args : List Byte} {s : State} {f : PointFields} {x : Nat} {c : Channel}
    (hf : s.pointFields? (recordArg args) = some f) (hx : s.channelOfPoint (u16At args 3) = some x)
    (hc : s.channel x = some c) (h : f.fallback = some x) : pointUpdateBody args s = answer .refusedRange s := by
  unfold pointUpdateBody
  rw [hf, hx]
  dsimp only
  rw [hc]
  exact if_pos h

/-- An update that is done writes the channel, and the jobs take what it posts. -/
theorem pointUpdateBody_other {args : List Byte} {s : State} {f : PointFields} {x : Nat} {c : Channel}
    (hf : s.pointFields? (recordArg args) = some f) (hx : s.channelOfPoint (u16At args 3) = some x)
    (hc : s.channel x = some c) (h : f.fallback ≠ some x) :
    ∃ u, pointUpdateBody args s = answer .done u ∧
      u.lessUpdates = (s.setChannel x (some (c.rewritten f))).lessUpdates := by
  unfold pointUpdateBody
  rw [hf, hx]
  dsimp only
  rw [hc]
  dsimp only
  rw [if_neg h]
  split_ifs
  · exact ⟨_, rfl, jobsKeep_lessUpdates.postFrom none false x _⟩
  · exact ⟨_, rfl, jobsKeep_lessUpdates.postUpdates none false [x] _⟩
  · exact ⟨_, rfl, rfl⟩

theorem rewritten_of_same {c : Channel} {f : PointFields} (hcls : c.cls = f.cls) (hline : c.line = f.line) :
    c.rewritten f = { c with warmCount := f.warmCount, window := f.window, fallback := f.fallback } := by
  unfold Channel.rewritten
  rw [if_pos ⟨hcls, hline⟩, ← hcls, ← hline]

theorem rewritten_of_moved {c : Channel} {f : PointFields} (h : c.cls ≠ f.cls ∨ c.line ≠ f.line)
    (hs : c.state ≠ .outOfService) :
    c.rewritten f =
      { c with
        cls := f.cls, line := f.line, warmCount := f.warmCount, window := f.window, fallback := f.fallback,
        state := .warming, own := none, seen := false, miss := 0, good := 0 } := by
  unfold Channel.rewritten
  rw [if_neg (by tauto), if_neg hs]

theorem rewritten_of_outOfService {c : Channel} {f : PointFields} (h : c.cls ≠ f.cls ∨ c.line ≠ f.line)
    (hs : c.state = .outOfService) :
    c.rewritten f =
      { c with
        cls := f.cls, line := f.line, warmCount := f.warmCount, window := f.window, fallback := f.fallback,
        own := none } := by
  unfold Channel.rewritten
  rw [if_neg (by tauto), if_pos hs]

/-! ### Requests on a channel (R53, R54) -/

theorem onChannel_of_beyond {args : List Byte} {s : State} {body : Nat → Channel → Answer} (h : 95 < byteAt args 0) :
    onChannel args s body = answer .refusedRange s := if_pos h

theorem onChannel_of_unset {args : List Byte} {s : State} {body : Nat → Channel → Answer} (h : byteAt args 0 ≤ 95)
    (hc : s.channel (byteAt args 0) = none) : onChannel args s body = answer .unknown s := by
  unfold onChannel
  dsimp only
  rw [if_neg (Nat.not_lt.mpr h), hc]

theorem onChannel_of_set {args : List Byte} {s : State} {body : Nat → Channel → Answer} {c : Channel}
    (h : byteAt args 0 ≤ 95) (hc : s.channel (byteAt args 0) = some c) :
    onChannel args s body = body (byteAt args 0) c := by
  unfold onChannel
  dsimp only
  rw [if_neg (Nat.not_lt.mpr h), hc]

section
variable {args : List Byte} {s : State} {c : Channel}

/-- The value 2 takes a channel out of service. -/
theorem setChannelServiceBody_out (h : byteAt args 0 ≤ 95) (hc : s.channel (byteAt args 0) = some c)
    (hv : byteAt args 1 = 2) (hs : c.state ≠ .outOfService) :
    setChannelServiceBody args s = changeChannel (byteAt args 0) { c with state := .outOfService } s := by
  rw [setChannelServiceBody, onChannel_of_set h hc]
  rw [hv, decide_eq_false hs]
  rfl

/-- The value 1 brings it back. -/
theorem setChannelServiceBody_back (h : byteAt args 0 ≤ 95) (hc : s.channel (byteAt args 0) = some c)
    (hv : byteAt args 1 = 1) (hs : c.state = .outOfService) :
    setChannelServiceBody args s = changeChannel (byteAt args 0) c.rewarm s := by
  rw [setChannelServiceBody, onChannel_of_set h hc]
  rw [hv, decide_eq_true hs]
  rfl

theorem setChannelServiceBody_ignored (h : byteAt args 0 ≤ 95) (hc : s.channel (byteAt args 0) = some c)
    (hout : byteAt args 1 = 2 → c.state = .outOfService) (hback : byteAt args 1 = 1 → c.state ≠ .outOfService) :
    setChannelServiceBody args s = answer .ignored s := by
  rw [setChannelServiceBody, onChannel_of_set h hc]
  split
  · rename_i hv hs
    exact absurd (hout hv) (of_decide_eq_false hs)
  · rename_i hv hs
    exact absurd (of_decide_eq_true hs) (hback hv)
  · rfl

theorem rearmChannelBody_failedOver (h : byteAt args 0 ≤ 95) (hc : s.channel (byteAt args 0) = some c)
    (hs : c.state = .failedOver) : rearmChannelBody args s = changeChannel (byteAt args 0) c.rewarm s := by
  rw [rearmChannelBody, onChannel_of_set h hc, if_pos hs]

theorem rearmChannelBody_ignored (h : byteAt args 0 ≤ 95) (hc : s.channel (byteAt args 0) = some c)
    (hs : c.state ≠ .failedOver) : rearmChannelBody args s = answer .ignored s := by
  rw [rearmChannelBody, onChannel_of_set h hc, if_neg hs]

end

end Sys2Proof.Machine
end

section
/-! The statements on requests about points and channels. -/

namespace Sys2Proof.Machine

/-- Settles O32: the record is good, so the first UNSET channel alone decides. -/
theorem pointInsertEffect : Obligations.PointInsertEffect := by
  rintro r rest i1 i0 channel line warm window fallback point cls l s ready hargs hp - rfl h1 h2 h3 h4 hf
  have hl : r.args.length = 11 := by rw [hargs]; rfl
  have fields := pointFields?_good (s := s.beginExecution rest) hargs hp h1 h2 h3 h4 hf
  refine ⟨fun x hx first => ?_, fun hn => ?_⟩
  · have lowest : (s.beginExecution rest).channels.findIdx? (·.isNone) = some x := by
      obtain ⟨hlt, hx⟩ := List.getElem?_eq_some_iff.mp hx
      refine List.findIdx?_eq_some_iff_getElem.mpr ⟨hlt, Option.isNone_iff_eq_none.mpr hx, fun y hy hnone => ?_⟩
      exact first y hy (List.getElem?_eq_some_iff.mpr ⟨hy.trans hlt, Option.isNone_iff_eq_none.mp hnone⟩)
    refine congrArg Host.Outcome.next (serve_sized ready hl ?_ rfl)
    unfold pointInsertBody
    rw [fields]
    dsimp only
    rw [lowest]
    rfl
  · have full : (s.beginExecution rest).channels.findIdx? (·.isNone) = none :=
      List.findIdx?_eq_none_iff.mpr fun c hc => Bool.eq_false_iff.mpr fun hnone =>
        hn (Option.isNone_iff_eq_none.mp hnone ▸ hc)
    refine congrArg Host.Outcome.next (serve_sized ready hl ?_ rfl)
    unfold pointInsertBody
    rw [fields]
    dsimp only
    rw [full]
    rfl

/-- Settles O33: the record rewritten, and the jobs that take the updates of a change write no channel. -/
theorem pointUpdateEffect : Obligations.PointUpdateEffect := by
  rintro r rest i1 i0 channel line warm window fallback point x cls l c s ready hargs hp hx hc rfl h1 h2 h3 h4 hf
  intro fb
  have hl : r.args.length = 11 := by rw [hargs]; rfl
  have fields := pointFields?_good (s := s.beginExecution rest) hargs hp h1 h2 h3 h4 hf
  have mapped : (s.beginExecution rest).channelOfPoint (u16At r.args 3) = some x := by
    rw [← u16At_recordArg, hargs]
    exact (congrArg s.channelOfPoint (u16At_payload hp _)).trans hx
  refine ⟨fun own => ?_, fun other => ?_⟩
  · have body := pointUpdateBody_own fields mapped hc own
    exact congrArg Host.Outcome.next (serve_refused ready ((sized_of_length _ hl).trans body))
  · obtain ⟨u, body, posted⟩ := pointUpdateBody_other fields mapped hc other
    obtain ⟨answered, channels, points⟩ := serve_posted ready ((sized_of_length _ hl).trans body) posted
    refine ⟨_, rfl, answered, points, fun hcls hline => ?_, fun moved hs => ?_, fun moved hs => ?_⟩
    · exact channels.trans (congrArg (s.channels.set x <| some ·) (rewritten_of_same hcls hline))
    · exact channels.trans (congrArg (s.channels.set x <| some ·) (rewritten_of_moved moved hs))
    · rw [rewritten_of_outOfService moved hs] at channels
      obtain ⟨hlt, -⟩ := List.getElem?_eq_some_iff.mp (channel_eq_some.mp hc)
      have stands := channel_eq_some.mpr ((congrArg (·[x]?) channels).trans (List.getElem?_set_self hlt))
      refine (congrArg (Option.map fun d : Channel => (d.cls, d.line, d.state, d.own)) stands).trans ?_
      simp [hs]

/-- Settles O34: each deletion by its tests in their order. -/
theorem deletionsEffect : Obligations.DeletionsEffect := by
  refine ⟨fun r rest point s ready hargs hp => ?_, fun r rest entry s ready hargs he => ?_⟩
  · have hl : r.args.length = 3 := by rw [hargs]; rfl
    have number : indexArg r.args = point := by
      rw [hargs]
      exact u16At_be16 [2] [] hp
    have served {st : Status} {u : State}
        (hb : deletePointBody r.args (s.beginExecution rest) = ⟨st, [], u.beginExecution rest⟩)
        (ha : u.attention = s.attention) : exec .deleteEntryPoints s = .next (withReply r rest st [] u) :=
      congrArg Host.Outcome.next (serve_sized ready hl hb ha)
    refine ⟨fun absent => served ?_ rfl, fun x hx used => served ?_ rfl, fun x hx free => served ?_ rfl⟩
    · unfold deletePointBody
      rw [number, show (s.beginExecution rest).channelOfPoint point = none from absent]
      rfl
    · unfold deletePointBody
      rw [number, show (s.beginExecution rest).channelOfPoint point = some x from hx]
      exact if_pos used
    · unfold deletePointBody
      rw [number, show (s.beginExecution rest).channelOfPoint point = some x from hx]
      exact if_neg (Bool.eq_false_iff.mp free)
  · have hl : r.args.length = 3 := by rw [hargs]; rfl
    have index : indexArg r.args = entry.toNat := by rw [hargs, indexArg_low]
    have served {st : Status} {u : State}
        (hb : deleteActuatorBody r.args (s.beginExecution rest) = ⟨st, [], u.beginExecution rest⟩)
        (ha : u.attention = s.attention) : exec .deleteEntryActuators s = .next (withReply r rest st [] u) :=
      congrArg Host.Outcome.next (serve_sized ready hl hb ha)
    refine ⟨fun empty => served ?_ rfl, fun a ha used => served ?_ rfl, fun a ha named flying => served ?_ rfl⟩
    · unfold deleteActuatorBody
      rw [index]
      dsimp only
      rw [if_neg (Nat.not_lt.mpr he), show (s.beginExecution rest).actuator entry.toNat = none from empty]
      rfl
    · unfold deleteActuatorBody
      rw [index]
      dsimp only
      rw [if_neg (Nat.not_lt.mpr he), show (s.beginExecution rest).actuator entry.toNat = some a from ha]
      exact if_pos used
    · unfold deleteActuatorBody
      rw [index]
      dsimp only
      rw [if_neg (Nat.not_lt.mpr he), show (s.beginExecution rest).actuator entry.toNat = some a from ha]
      exact if_neg (Bool.eq_false_iff.mp (Bool.or_eq_false_iff.mpr ⟨named, flying⟩))

/-- Settles O43: index and channel first, then the service value and the channel's state. -/
theorem channelServiceEffects : Obligations.ChannelServiceEffects := by
  intro r rest x s
  refine ⟨fun row ready hrow => ?_, fun c hx hc => ⟨fun ready hargs hs => ?_, fun ready hargs hs => ?_,
    fun v ready hargs hv => ?_, fun ready hargs => ⟨fun hs => ?_, fun hs => ?_⟩⟩⟩
  · have index : byteAt r.args 0 = x.toNat := by
      obtain ⟨-, v, hargs⟩ | ⟨-, hargs⟩ := hrow <;> rw [hargs] <;> rfl
    have refused {st : Status}
        (h : ∀ body, onChannel r.args (s.beginExecution rest) body = answer st (s.beginExecution rest)) :
        exec row s = .next (withReply r rest st [] s) := by
      obtain ⟨rfl, v, hargs⟩ | ⟨rfl, hargs⟩ := hrow
      · have hl : r.args.length = 2 := by rw [hargs]; rfl
        exact congrArg Host.Outcome.next (serve_refused ready ((sized_of_length _ hl).trans (h _)))
      · have hl : r.args.length = 1 := by rw [hargs]; rfl
        exact congrArg Host.Outcome.next (serve_refused ready ((sized_of_length _ hl).trans (h _)))
    refine ⟨fun beyond => refused fun _ => ?_, fun within unset => refused fun _ => ?_⟩
    · exact onChannel_of_beyond (index ▸ beyond)
    · exact onChannel_of_unset (index ▸ within) (index ▸ unset)
  · have hl : r.args.length = 2 := by rw [hargs]; rfl
    have body := setChannelServiceBody_out (args := [x, 2]) (s := s.beginExecution rest) hx hc rfl hs
    exact ⟨_, rfl, serve_changeChannel ready ((sized_of_length _ hl).trans (hargs ▸ body))⟩
  · have hl : r.args.length = 2 := by rw [hargs]; rfl
    have body := setChannelServiceBody_back (args := [x, 1]) (s := s.beginExecution rest) hx hc rfl hs
    exact ⟨_, rfl, serve_changeChannel ready ((sized_of_length _ hl).trans (hargs ▸ body))⟩
  · have hl : r.args.length = 2 := by rw [hargs]; rfl
    have body : setChannelServiceBody [x, v] (s.beginExecution rest) = answer .ignored (s.beginExecution rest) := by
      refine setChannelServiceBody_ignored hx hc (fun h2 => ?_) (fun h1 => ?_)
      · have : v = 2#8 := BitVec.eq_of_toNat_eq h2
        subst this
        simpa using hv
      · have : v = 1#8 := BitVec.eq_of_toNat_eq h1
        subst this
        simpa using hv
    exact congrArg Host.Outcome.next (serve_refused ready ((sized_of_length _ hl).trans (hargs ▸ body)))
  · have hl : r.args.length = 1 := by rw [hargs]; rfl
    have body := rearmChannelBody_ignored (args := [x]) (s := s.beginExecution rest) hx hc hs
    exact congrArg Host.Outcome.next (serve_refused ready ((sized_of_length _ hl).trans (hargs ▸ body)))
  · have hl : r.args.length = 1 := by rw [hargs]; rfl
    have body := rearmChannelBody_failedOver (args := [x]) (s := s.beginExecution rest) hx hc hs
    exact ⟨_, rfl, serve_changeChannel ready ((sized_of_length _ hl).trans (hargs ▸ body))⟩

end Sys2Proof.Machine
end

section
/-! SUPPORT. What the jobs' handling of updates leaves: ROUTINE causes (R57, R176), and the causes of holds and trips at
the posts of a trip (R167). -/

namespace Sys2Proof.Machine

/-! ### ROUTINE causes -/

theorem urgentOnly_refl (s : State) : UrgentOnly s s := ⟨rfl, rfl, fun _ => rfl, fun _ _ => rfl⟩

/-- The plant's units set no ROUTINE cause in their own work. -/
theorem calm_routineCause {c : Cause} (hc : 6 < c.code) (k : CauseRecord) : Calm fun s => s.cause c = k where
  choices _ _ _ h := h
  originate s pr x h := (((calm_urgentOnly s).originate s pr x (urgentOnly_refl s)).routine c hc).trans h
  rewrite s n x h := (((calm_urgentOnly s).rewrite s n x (urgentOnly_refl s)).routine c hc).trans h
  feed _ _ _ _ h := h
  dispatch _ _ _ h := h
  runback _ _ _ h := h
  cause s _ l d hd h := (((urgentOnly_refl s).setCause hd l d).routine c hc).trans h
  trip _ _ _ h := h

theorem Plain.floorRise {P : State → Prop} (h : Plain P) (e : Nat) (f : Int) {s : State} (hs : P s) :
    P (floorRise e f s) := by
  unfold Machine.floorRise
  split
  · rename_i a _
    have rewritten := h.rewrite s a.number (.lower f) hs
    dsimp only
    split
    · exact keeps_ite (h.originateAt _ _ _ _ rewritten) rewritten
    · exact rewritten
  · exact hs

theorem Plain.reagentBandChange {P : State → Prop} (h : Plain P) (l : Line) (r : Reagent) (b b' : Fin 3) {s : State}
    (hs : P s) : P (reagentBandChange l r b b' s) := by
  refine inTurn_holds (fun i t ht => ?_) hs
  split
  · exact keeps_ite (h.floorRise _ _ ht) ht
  · exact ht

theorem Plain.dispatchTurbine {P : State → Prop} (h : Plain P) {s : State} (hs : P s) : P (dispatchTurbine s) :=
  h.recomputeAllowed _ (h.deriveSink (h.dispatch s _ (fun _ => rfl) hs))

/-- Every action of a job keeps what the plant's units keep in their own work, where averagers and the count of trip offers
are no part of it (R57). -/
theorem Calm.jobAction {P : State → Prop} (h : Calm P) (averager : ∀ s l g, P s → P (s.modAverager l g))
    (offers : ∀ s n, P s → P { s with tripOffers := n }) {act : State → State} (ha : JobAction act) {s : State}
    (hs : P s) :
    P (act s) := by
  have banded (l : Line) (p : Pollutant) (b : Fin 3) {t : State} (ht : P t) : P (setBand l p b t) := by
    have set : P (t.modPollutant l p fun x => { x with band := b }) := averager t l _ ht
    unfold setBand
    dsimp only
    split
    · exact keeps_ite set (h.reagentBandChange _ _ _ _ set)
    · exact set
  cases ha with
  | furnace l => exact h.evalFurnace l hs
  | position l e v fresh =>
    unfold positionUpdate
    split
    · exact keeps_ite (h.toSettling l hs) hs
    · exact hs
  | sample l p v fresh =>
    unfold sample
    split
    · exact keeps_ite (banded l p _ (averager s l _ hs)) hs
    · exact hs
  | steam => exact h.dispatchSteam hs
  | turbine => exact h.dispatchTurbine hs
  | bypass => exact h.deriveSink hs
  | drum l => exact h.condition _ _ hs
  | cap => exact h.capTaken hs
  | trip l fromReading =>
    unfold drumTest
    split
    · exact keeps_ite (h.addTripCause l _ (keeps_ite (offers s _ hs) hs)) hs
    · exact hs

theorem jobsKeep_routineCause {c : Cause} (hc : 6 < c.code) : JobsKeep fun s => s.cause c := by
  have job {act : State → State} (ha : JobAction act) (s : State) : (act s).cause c = s.cause c :=
    (calm_routineCause hc (s.cause c)).jobAction (fun _ _ _ h => h) (fun _ _ h => h) ha rfl
  exact
    { choose := fun s n => (calm_routineCause hc (s.cause c)).choose n rfl
      furnace := fun l => job (.furnace l)
      position := fun l e v fresh => job (.position l e v fresh)
      sample := fun l p v fresh => job (.sample l p v fresh)
      steam := job .steam
      turbine := job .turbine
      bypass := job .bypass
      drum := fun l => job (.drum l)
      cap := job .cap
      trip := fun l fromReading => job (.trip l fromReading) }

/-! ### The posts of a trip -/

theorem feed_of_load {s t : State} (h : t.lessLoad = s.lessLoad) : t.feed = s.feed :=
  read_of_erased State.lessLoad (fun _ => rfl) h

theorem feed_condition (c : Condition) (now : Bool) (s : State) : (condition c now s).feed = s.feed := by
  have triggered (s : State) : (trigger s).feed = s.feed := feed_of_load (s := s) (t := capTaken s) (lessLoad_capTaken s)
  unfold condition
  split
  · rfl
  · dsimp only
    split
    · exact triggered _
    · split <;> rfl

theorem held_choose {s : State} {l : Line} {k : HoldCause} (n : Nat) (h : s.Held l k) : (s.choose n).2.Held l k :=
  holdsKept_of_feed (feed_choose s n) l k h

/-- The posts of a trip have the line's feed hold TRIPPED, in either order (R110, R167). -/
theorem held_tripPosts (l : Line) (s : State) : (inAnyOrder (tripPosts l true) s).Held l .tripped := by
  refine inAnyOrder_establishes (I := fun _ => True) (D := fun t => t.Held l .tripped) (fun _ _ _ => trivial)
    (fun _ n _ h => held_choose n h) (fun _ _ _ _ => trivial) (fun act hact t _ ht => ?_) List.mem_cons_self
    (fun t _ => (held_addHold l .tripped t).1) trivial
  simp only [List.mem_cons, List.not_mem_nil, or_false] at hact
  rcases hact with rfl | rfl
  · exact (held_addHold l .tripped t).2 l _ ht
  · exact holdsKept_of_feed ((feed_of_load (lessLoad_capTaken _)).trans (feed_condition _ _ t)) l _ ht

/-- A trip cause that is absent is added; where the set was empty, TRIPPED holds the line's feed (R110, R167). -/
theorem addTripCause_of_absent {l : Line} {c : TripCause} {s : State} (h : (s.tripOf l).causes.get c = false) :
    (addTripCause l c s).trip = (s.modTrip l fun t => { t with causes := t.causes.set c true }).trip ∧
      ((s.tripOf l).causes.isEmpty = true → (addTripCause l c s).Held l .tripped) := by
  have recorded : (recordTrip l c s).trip = (s.modTrip l fun t => { t with causes := t.causes.set c true }).trip := by
    rw [recordTrip_of_absent h]
    rfl
  unfold addTripCause
  split
  · have posts := (plain_sameTrips (recordTrip l c s)).inAnyOrder ((plain_sameTrips (recordTrip l c s)).tripPosts l true)
      ⟨rfl, rfl, fun _ _ => rfl⟩
    exact ⟨posts.trip.trans recorded, fun _ => held_tripPosts l _⟩
  · exact ⟨recorded, fun he => absurd he (by assumption)⟩

end Sys2Proof.Machine
end

section
/-! The statement on what a sweep brings. -/

namespace Sys2Proof.Machine

/-- The check of one channel, as an event of its own. -/
theorem checkChannels_one (i : Nat) (s : State) : checkChannels i (i + 1) s = asEvent (checkChannel i) s := by
  unfold checkChannels
  rw [Nat.add_sub_cancel_left]
  rfl

/-- The CHANNEL_LOST event at the channel at which the owed sweep stands. -/
theorem channelLost_of_owed {i : Nat} {c : Channel} {s : State} (hr : s.resetAsserted = false)
    (ho : .channels ∈ s.owedSweep) (hn : s.sweepNext = i) (hc : s.channel i = some c) (hl : c.lostAtSweep = true) :
    channelLost i s = noticesSince { s with sweepNext := i + 1 }
      (postFrom none false i (lostRecorded i c { s with sweepNext := i + 1 })) := by
  refine (unlessHeld_of_released hr _).trans ?_
  dsimp only
  rw [hc, hn, if_pos ⟨ho, le_rfl, hl⟩, checkChannels_one, asEvent,
    checkChannel_of_lost (s := { s with sweepNext := i + 1 }) hc hl]

/-- A line's owed sweep taken up to its grace count. -/
def graceCounted (l : Line) (s : State) : State :=
  ({ s with owedSweep := s.owedSweep.erase (.trip l) } : State).modTrip l fun t => { t with grace := satSucc 255 t.grace }

theorem tripOf_graceCounted (l m : Line) (s : State) : (graceCounted l s).tripOf m =
    if m = l then { s.tripOf l with grace := satSucc 255 (s.tripOf l).grace } else s.tripOf m :=
  State.tripOf_modTrip _ l m _

/-- The drum grace expiry of the owed sweep at a line whose drum level is UNAVAILABLE. -/
theorem drumGraceExpiry_of_owed {l : Line} {s : State} (hr : s.resetAsserted = false) (ho : .trip l ∈ s.owedSweep)
    (hv : s.roleValue (s.binding l).drumLevel = none)
    (hlim : s.lineLimit l .drumGrace ≤ (satSucc 255 (s.tripOf l).grace : Int))
    (habs : (s.tripOf l).causes.drumLowLow = false) :
    (drumGraceExpiry l s).lessNotices = (addTripCause l .drumLowLow (graceCounted l s)).lessNotices := by
  have swept : tripSweep l { s with owedSweep := s.owedSweep.erase (.trip l) } =
      addTripCause l .drumLowLow (graceCounted l s) := by
    have unavailable : State.roleValue { s with owedSweep := s.owedSweep.erase (.trip l) }
      (State.binding { s with owedSweep := s.owedSweep.erase (.trip l) } l).drumLevel = none := hv
    unfold tripSweep
    rw [unavailable]
    refine if_pos ?_
    rw [State.tripOf_modTrip_self]
    exact hlim
  have expiry : drumGraceExpiry l s = takeOwedSweep (.trip l) s :=
    (unlessHeld_of_released hr _).trans (if_pos ⟨ho, by rw [hv]; rfl, hlim, by rw [habs]; rfl⟩)
  rw [expiry, takeOwedSweep, if_pos ho, takeSweep, asEvent, swept, lessNotices_noticesSince]

/-- What the loss of a channel leaves: the record and the cause that its check wrote. -/
theorem channelLost_leaves {i : Nat} {c : Channel} {s : State} (hr : s.resetAsserted = false)
    (ho : .channels ∈ s.owedSweep) (hn : s.sweepNext = i) (hc : s.channel i = some c) (hl : c.lostAtSweep = true)
    (hlen : s.attention.causes.length = 15) :
    (channelLost i s).sweepNext = i + 1 ∧
      (channelLost i s).channels = s.channels.set i (some { c.swept with state := s.lostState c }) ∧
      (channelLost i s).HasSet .channelLost ⟨c.line, s.plantTime, i⟩ := by
  have recorded : (lostRecorded i c { s with sweepNext := i + 1 }).HasSet .channelLost ⟨c.line, s.plantTime, i⟩ :=
    hasSet_setCause (by exact hlen) .channelLost c.line i
  have next : (lostRecorded i c { s with sweepNext := i + 1 }).sweepNext = i + 1 := rfl
  have table : (lostRecorded i c { s with sweepNext := i + 1 }).channels =
    s.channels.set i (some { c.swept with state := s.lostState c }) := rfl
  rw [channelLost_of_owed hr ho hn hc hl]
  generalize lostRecorded i c { s with sweepNext := i + 1 } = u at recorded next table
  have others := jobsKeep_lessUpdates.postFrom none false i u
  have cause := (jobsKeep_routineCause (c := .channelLost) (by decide)).postFrom none false i u
  generalize postFrom none false i u = v at others cause
  refine ⟨?_, (channels_noticesSince _ v).trans ((channels_of_updates others).trans table), ?_, ?_⟩
  · have noticed : (noticesSince { s with sweepNext := i + 1 } v).sweepNext = v.sweepNext :=
      read_of_erased State.lessNotices (fun _ => rfl) (lessNotices_noticesSince _ v)
    have posted : v.sweepNext = u.sweepNext := read_of_erased State.lessUpdates (fun _ => rfl) others
    exact noticed.trans (posted.trans next)
  · rw [noticesSince_keeps _ v (by decide) CauseRecord.status fun _ => rfl, cause]
    exact recorded.1
  · rw [noticesSince_keeps _ v (by decide) CauseRecord.held fun _ => rfl, cause]
    exact recorded.2

/-- Settles O25: the check or the count first, then what it posts, which leaves what the check or the count wrote. -/
theorem sweepEvents : Obligations.SweepEvents := by
  refine ⟨fun i c s hr ho hn hc hs hseen hmiss hw hlen => ?_, fun l s hr ho hv hg hlim habs => ?_⟩
  · have count : satSucc 255 c.miss = c.miss + 1 := if_pos hmiss
    have lost : c.lostAtSweep = true := by
      have : c.state.canBeLost = true := by rcases hs with h | h | h <;> rw [h] <;> rfl
      simp [Channel.lostAtSweep, this, hseen, count, hw]
    have swept : c.swept = { c with miss := c.miss + 1 } := by
      have : c.state.swept = true := by rcases hs with h | h | h <;> rw [h] <;> rfl
      simp [Channel.swept, this, hseen, count]
    obtain ⟨next, channels, status, held⟩ := channelLost_leaves hr ho hn hc lost hlen
    rw [swept] at channels
    refine ⟨_, rfl, next, fun ⟨f, hf, hlive⟩ => ?_, fun hdead => ?_, status, held⟩
    · have : s.lostState c = .failedOver := by simp [State.lostState, hf, hlive]
      rw [channels, this]
    · have : s.lostState c = .stale := by
        unfold State.lostState
        cases hf : c.fallback with
        | none => rfl
        | some f => exact if_neg (Bool.eq_false_iff.mp (hdead f hf))
      rw [channels, this]
  · have count : satSucc 255 (s.tripOf l).grace = (s.tripOf l).grace + 1 := if_pos hg
    have event := drumGraceExpiry_of_owed hr ho hv (by rw [count]; exact hlim) habs
    have trips := fun m => tripOf_graceCounted l m s
    have sweeps : (graceCounted l s).owedSweep = s.owedSweep.erase (.trip l) := rfl
    generalize graceCounted l s = u at event trips sweeps
    have causes : (u.tripOf l).causes = (s.tripOf l).causes := by rw [trips, if_pos rfl]
    obtain ⟨added, tripped⟩ := addTripCause_of_absent (l := l) (c := .drumLowLow) (s := u) (by rw [causes]; exact habs)
    have plant := lessPlant_addTripCause l .drumLowLow u
    generalize addTripCause l .drumLowLow u = v at event added tripped plant
    have units (m : Line) : (drumGraceExpiry l s).tripOf m =
        if m = l then { u.tripOf l with causes := (u.tripOf l).causes.set .drumLowLow true } else u.tripOf m := by
      have : (drumGraceExpiry l s).tripOf m = v.tripOf m := congrArg (fun t => t.trip.get m) event
      rw [this, State.tripOf, added]
      exact State.tripOf_modTrip _ l m _
    refine ⟨_, rfl, ?_, ?_, fun m hm => ?_, fun he => ?_⟩
    · have posted : v.owedSweep = u.owedSweep := read_of_erased State.lessPlant (fun _ => rfl) plant
      exact (congrArg (fun t => t.owedSweep) event).trans (posted.trans sweeps)
    · rw [units, if_pos rfl, trips, if_pos rfl, count]
      rfl
    · rw [units, if_neg hm, trips, if_neg hm]
    · exact holdsKept_of_feed (congrArg (fun t => t.feed) event) l _ (tripped (by rw [causes]; exact he))

end Sys2Proof.Machine
end

section
/-! SUPPORT. The holds that one change of a hold cause leaves, with its release check (R100, R108, R112). -/

namespace Sys2Proof.Machine

theorem holds_releaseCheck (l m : Line) (s : State) : ((releaseCheck l s).feedOf m).holds = (s.feedOf m).holds := by
  have same (g : Feed → Feed) (hg : ∀ f, (g f).holds = f.holds) (s : State) :
      ((s.modFeed l g).feedOf m).holds = (s.feedOf m).holds := by
    rw [State.feedOf_modFeed]
    split
    · rename_i hm
      rw [hg, hm]
    · rfl
  have originated (e : Nat) (x : Int) (s : State) :
      ((originate e .stroke x .routine s).feedOf m).holds = (s.feedOf m).holds :=
    congrArg (fun f => (PerLine.get f m).holds) (feed_originate e .stroke x .routine s)
  unfold releaseCheck release
  split
  · split
    · dsimp only
      refine (same _ ?_ _).trans ((originated _ _ _).trans (same _ ?_ s))
      · exact fun _ => rfl
      · exact fun _ => rfl
    · rfl
  · rfl

theorem get_addHold (l m : Line) (k k' : HoldCause) (s : State) :
    ((addHold l k s).feedOf m).holds.get k' = if m = l ∧ k' = k then true else (s.feedOf m).holds.get k' := by
  unfold addHold
  split
  · rename_i held
    split
    · rename_i h
      rw [h.1, h.2]
      exact held
    · rfl
  · rw [holds_abortStroke, held_modFeed_set]

theorem get_removeHold (l m : Line) (k k' : HoldCause) (s : State) :
    ((removeHold l k s).feedOf m).holds.get k' = if m = l ∧ k' = k then false else (s.feedOf m).holds.get k' := by
  unfold removeHold
  split
  · rw [holds_releaseCheck, held_modFeed_set]
  · rename_i absent
    split
    · rename_i h
      rw [h.1, h.2]
      exact Bool.eq_false_iff.mpr absent
    · rfl

/-- The sink change taken by a line's feed admission unit (R112). -/
theorem noSink_sinkChange (l m : Line) (s : State) : ((sinkChange l s).feedOf m).holds.noSink =
    if m = l then decide (s.dispatch.sink = .none) else (s.feedOf m).holds.noSink := by
  have added := get_addHold l m .noSink .noSink s
  have removed := get_removeHold l m .noSink .noSink s
  unfold sinkChange
  split
  · rename_i hs
    simpa [hs, HoldSet.get] using added
  · rename_i hs
    rw [holds_releaseCheck]
    simpa [hs, HoldSet.get] using removed

end Sys2Proof.Machine
end

section
/-! SUPPORT. What a change of the plant's status roles has the dispatch unit do: the sink state derived anew, and the
allowed load (R60, R141, R149). -/

namespace Sys2Proof.Machine

theorem roleValue_of_plant {s b : State} (h : s.lessPlant = b.lessPlant) (role : Option Nat) :
    s.roleValue role = b.roleValue role := State.roleValue_congr (channels_of_plant h) role

theorem plantBinding_of_plant {s b : State} (h : s.lessPlant = b.lessPlant) : s.plantBinding = b.plantBinding :=
  read_of_erased State.lessPlant (fun _ => rfl) h

theorem turbineOnline_of_plant {s b : State} (h : s.lessPlant = b.lessPlant) : s.turbineOnline = b.turbineOnline := by
  unfold State.turbineOnline
  rw [plantBinding_of_plant h, roleValue_of_plant h]

theorem sinkFromStatus_of_plant {s b : State} (h : s.lessPlant = b.lessPlant) : s.sinkFromStatus = b.sinkFromStatus := by
  unfold State.sinkFromStatus
  rw [turbineOnline_of_plant h, plantBinding_of_plant h, roleValue_of_plant h]

/-- A state with the blocks of another but for the feed admission units, and with a dispatch unit named. -/
structure Posting (b : State) (d : DispatchUnit) (s : State) : Prop where
  plant : s.lessPlant = b.lessPlant
  actuators : SameActuators b s
  runback : s.runback = b.runback
  trip : s.trip = b.trip
  dispatch : s.dispatch = d

section
variable {b s : State} {d : DispatchUnit} (h : Posting b d s)
include h

theorem Posting.choose (n : Nat) : Posting b d (s.choose n).2 := by
  obtain ⟨plant, actuators, runback, trip, dispatch⟩ := h
  rw [choose_eq]
  exact ⟨plant, actuators, runback, trip, dispatch⟩

theorem Posting.sinkChange (l : Line) : Posting b d (sinkChange l s) := by
  have left := lessFeed_sinkChange l s
  exact ⟨(lessPlant_of_feed left).trans h.plant, (calm_sameActuators b).toPlain.sinkChange l h.actuators,
    (congrArg (fun t => t.runback) left).trans h.runback, (congrArg (fun t => t.trip) left).trans h.trip,
    (congrArg (fun t => t.dispatch) left).trans h.dispatch⟩

/-- Both feed admission units take the post of a sink change, in either order (R112, R141). -/
theorem Posting.sinkPosts : Posting b d (inAnyOrder [Machine.sinkChange .one, Machine.sinkChange .two] s) ∧
    ∀ l, ((inAnyOrder [Machine.sinkChange .one, Machine.sinkChange .two] s).feedOf l).holds.noSink =
      decide (d.sink = .none) := by
  have posts {act : State → State} (hact : act ∈ [Machine.sinkChange .one, Machine.sinkChange .two]) :
      ∃ l, act = Machine.sinkChange l := by
    simp only [List.mem_cons, List.not_mem_nil, or_false] at hact
    rcases hact with rfl | rfl
    · exact ⟨.one, rfl⟩
    · exact ⟨.two, rfl⟩
  have ground : ∀ act ∈ [Machine.sinkChange .one, Machine.sinkChange .two], ∀ t, Posting b d t → Posting b d (act t) := by
    intro act hact t ht
    obtain ⟨l, rfl⟩ := posts hact
    exact ht.sinkChange l
  refine ⟨inAnyOrder_invariant _ (fun _ n ht => ht.choose n) _ ground s h, fun l => ?_⟩
  refine inAnyOrder_establishes (D := fun t => (t.feedOf l).holds.noSink = decide (d.sink = .none))
    (fun _ n ht => ht.choose n) (fun t n _ hD => ?_) ground (fun act hact t ht hD => ?_)
    (act := Machine.sinkChange l) (by cases l <;> simp) (fun t ht => ?_) h
  · exact (congrArg (fun f => (PerLine.get f l).holds.noSink) (feed_choose t n)).trans hD
  · obtain ⟨m, rfl⟩ := posts hact
    rw [noSink_sinkChange, ht.dispatch]
    split
    · rfl
    · exact hD
  · rw [noSink_sinkChange, if_pos rfl, ht.dispatch]

end

/-- A dispatch unit without what it derives from the status roles. -/
def DispatchUnit.lessStatus (d : DispatchUnit) : DispatchUnit := { d with sink := .none, online := false, allowed := 0 }

/-- A state that the dispatch unit's handling of status roles can reach from another. -/
structure Rederived (b s : State) : Prop where
  posting : Posting b s.dispatch s
  dispatch : s.dispatch.lessStatus = b.dispatch.lessStatus
  sink : s.dispatch.sink ≠ b.dispatch.sink → s.dispatch.sink = b.sinkFromStatus ∧
    ∀ l, (s.feedOf l).holds.noSink = decide (s.dispatch.sink = .none)

theorem rederived_refl (b : State) : Rederived b b :=
  ⟨⟨rfl, sameActuators_refl b, rfl, rfl, rfl⟩, rfl, fun hs => absurd rfl hs⟩

section
variable {b s : State} (h : Rederived b s)
include h

theorem Rederived.choose (n : Nat) : Rederived b (s.choose n).2 := by
  obtain ⟨posting, dispatch, sink⟩ := h
  have posted := posting.choose n
  rw [choose_eq] at posted ⊢
  exact ⟨posted, dispatch, sink⟩

theorem Rederived.allowedNow : s.allowedNow = b.allowedNow := by
  have limits : s.limits = b.limits := read_of_erased State.lessPlant (fun _ => rfl) h.posting.plant
  have maxLoad : s.maxLoad = b.maxLoad := by
    unfold State.maxLoad State.limit State.limitEntry
    rw [limits]
  have ramped : s.dispatch.ramped = b.dispatch.ramped := congrArg (fun d => d.ramped) h.dispatch
  have steamLoad : s.dispatch.steamLoad = b.dispatch.steamLoad := congrArg (fun d => d.steamLoad) h.dispatch
  have cap : s.dispatch.cap = b.dispatch.cap := congrArg (fun d => d.cap) h.dispatch
  unfold State.allowedNow
  rw [turbineOnline_of_plant h.posting.plant, maxLoad, ramped, steamLoad, cap]

/-- The sink state derived once more (R141). -/
theorem Rederived.deriveSink : Rederived b (deriveSink s) ∧ (Machine.deriveSink s).dispatch =
    { s.dispatch with sink := b.sinkFromStatus } := by
  unfold Machine.deriveSink
  rw [sinkFromStatus_of_plant h.posting.plant]
  dsimp only
  split
  · rename_i he
    exact ⟨h, by rw [he]⟩
  · obtain ⟨plant, actuators, runback, trip, -⟩ := h.posting
    obtain ⟨posted, hold⟩ := Posting.sinkPosts (b := b) (d := { s.dispatch with sink := b.sinkFromStatus })
      (s := s.modDispatch fun d => { d with sink := b.sinkFromStatus }) ⟨plant, actuators, runback, trip, rfl⟩
    have dispatch := posted.dispatch
    generalize inAnyOrder _ _ = t at posted hold dispatch
    have sink : t.dispatch.sink = b.sinkFromStatus := congrArg DispatchUnit.sink dispatch
    refine ⟨⟨dispatch ▸ posted, ?_, fun _ => ⟨sink, fun l => ?_⟩⟩, dispatch⟩
    · rw [dispatch]
      exact h.dispatch
    · rw [sink]
      exact hold l

/-- The allowed load computed once more (R149, R150). -/
theorem Rederived.recomputeAllowed (pr : Priority) : Rederived b (recomputeAllowed pr s) ∧
    (Machine.recomputeAllowed pr s).dispatch = { s.dispatch with allowed := b.allowedNow } := by
  obtain ⟨plant, actuators, runback, trip, -⟩ := h.posting
  have load := lessLoad_recomputeAllowed pr s
  have dispatch := dispatch_recomputeAllowed pr s
  rw [h.allowedNow] at dispatch
  have placed := (calm_sameActuators b).toPlain.recomputeAllowed pr actuators
  generalize Machine.recomputeAllowed pr s = t at load dispatch placed
  have sink : t.dispatch.sink = s.dispatch.sink := by rw [dispatch]
  refine ⟨⟨⟨(lessPlant_of_load load).trans plant, placed, ?_, ?_, rfl⟩, ?_, fun hs => ?_⟩, dispatch⟩
  · exact (congrArg (fun t => t.runback) load).trans runback
  · exact (congrArg (fun t => t.trip) load).trans trip
  · rw [dispatch]
    exact h.dispatch
  · rw [sink] at hs ⊢
    obtain ⟨hsink, hold⟩ := h.sink hs
    exact ⟨hsink, fun l => (congrArg (fun f => (PerLine.get f l).holds.noSink) (feed_of_load load)).trans (hold l)⟩

theorem Rederived.online (o : Bool) : Rederived b (s.modDispatch fun d => { d with online := o }) := by
  obtain ⟨⟨plant, actuators, runback, trip, -⟩, dispatch, sink⟩ := h
  exact ⟨⟨plant, actuators, runback, trip, rfl⟩, dispatch, sink⟩

/-- A turbine status update (R60, R150). -/
theorem Rederived.dispatchTurbine : Rederived b (dispatchTurbine s) ∧
    (Machine.dispatchTurbine s).dispatch.sink = b.sinkFromStatus ∧
      (Machine.dispatchTurbine s).dispatch.allowed = b.allowedNow := by
  obtain ⟨derived, sink⟩ := (h.online s.turbineOnline).deriveSink
  obtain ⟨done, allowed⟩ := derived.recomputeAllowed (if s.dispatch.online && !s.turbineOnline then .urgent else .routine)
  have computed : Machine.dispatchTurbine s = Machine.recomputeAllowed
      (if s.dispatch.online && !s.turbineOnline then .urgent else .routine)
      (Machine.deriveSink (s.modDispatch fun d => { d with online := s.turbineOnline })) := rfl
  rw [computed]
  refine ⟨done, (congrArg DispatchUnit.sink allowed).trans ?_, congrArg DispatchUnit.allowed allowed⟩
  exact congrArg DispatchUnit.sink sink

/-- A bypass status update (R60, R150). -/
theorem Rederived.dispatchBypass : Rederived b (dispatchBypass s) ∧
    (Machine.dispatchBypass s).dispatch.sink = b.sinkFromStatus ∧
      (Machine.dispatchBypass s).dispatch.allowed = s.dispatch.allowed := by
  obtain ⟨derived, sink⟩ := h.deriveSink
  have derives : Machine.dispatchBypass s = Machine.deriveSink s := rfl
  rw [derives]
  exact ⟨derived, by rw [sink], by rw [sink]⟩

end

end Sys2Proof.Machine
end

section
/-! SUPPORT. The fields of a plant BINDINGS record (R14, R58). -/

namespace Sys2Proof.Machine

/-- The index field of a byte. -/
def roleByte (x : Byte) : Option Nat := if x = 255#8 then none else some x.toNat

theorem channelFits_roleByte {s : State} {cls : ChannelClass} {x : Byte} :
    s.channelFits cls (roleByte x) = true ↔ x = 255#8 ∨ ∃ c, s.channel x.toNat = some c ∧ c.cls = cls := by
  unfold roleByte
  split
  · rename_i hx
    simp [State.channelFits, hx]
  · rename_i hx
    cases hc : s.channel x.toNat <;> simp [State.channelFits, hx, hc]

theorem entryFits_roleByte {s : State} {role : Role} {x : Byte} :
    s.entryFits role (roleByte x) = true ↔ x = 255#8 ∨ ∃ a, s.actuator x.toNat = some a ∧ a.role = role := by
  unfold roleByte
  split
  · rename_i hx
    simp [State.entryFits, hx]
  · rename_i hx
    cases ha : s.actuator x.toNat <;> simp [State.entryFits, hx, ha]

theorem roleValue_roleByte (s : State) (x : Byte) :
    s.roleValue (roleByte x) = if x = 255#8 then none else s.effective x.toNat := by
  unfold roleByte
  split <;> rfl

/-- The plant binding of a record's bytes. -/
def plantBytes (turbine bypass load : Byte) : PlantBinding := ⟨roleByte turbine, roleByte bypass, roleByte load⟩

/-- A state with its plant binding replaced. -/
def State.withPlant (s : State) (b : PlantBinding) : State := { s with plantBinding := b }

/-- Whether the fields of a plant BINDINGS record all fit (R58). -/
def State.plantFits (s : State) (turbine bypass load : Byte) : Prop :=
  (∀ x, x = turbine ∨ x = bypass → x = 255#8 ∨ ∃ c, s.channel x.toNat = some c ∧ c.cls = .status) ∧
    (load = 255#8 ∨ ∃ a, s.actuator load.toNat = some a ∧ a.role = .turbineLoad)

theorem plantFits_iff {s : State} {turbine bypass load : Byte} : s.plantFits turbine bypass load ↔
    (s.channelFits .status (roleByte turbine) && s.channelFits .status (roleByte bypass) &&
      s.entryFits .turbineLoad (roleByte load)) = true := by
  rw [Bool.and_eq_true, Bool.and_eq_true, channelFits_roleByte, channelFits_roleByte, entryFits_roleByte]
  unfold State.plantFits
  simp only [forall_eq_or_imp, forall_eq]

theorem plantBinding?_bytes (s : State) (turbine bypass load : Byte) : s.plantBinding? [turbine, bypass, load] =
    if s.channelFits .status (roleByte turbine) && s.channelFits .status (roleByte bypass) &&
      s.entryFits .turbineLoad (roleByte load) then
      some (plantBytes turbine bypass load) else none := by
  have field (x : Byte) : indexField x.toNat = roleByte x := indexField_byte x
  unfold plantBytes
  rw [← field, ← field, ← field]
  rfl

end Sys2Proof.Machine
end

section
/-! SUPPORT. What a change of the plant binding brings (R60). -/

namespace Sys2Proof.Machine

/-- What the changed status roles of the plant have the dispatch unit do (R60). -/
def statusActions (old new : PlantBinding) : List (State → State) :=
  whenChanged old.turbineStatus new.turbineStatus [dispatchTurbine] ++
    whenChanged old.bypassStatus new.bypassStatus [dispatchBypass]

theorem writeBindingBody_plant {args : List Byte} {s : State} {new : PlantBinding} (hi : indexArg args = 0)
    (hb : s.plantBinding? (recordArg args) = some new) : writeBindingBody args s =
      answer .done (deliver [statusActions s.plantBinding new] (s.withPlant new)) := by
  unfold writeBindingBody
  rw [hi, hb]
  rfl

theorem writeBindingBody_plant_refused {args : List Byte} {s : State} (hi : indexArg args = 0)
    (hb : s.plantBinding? (recordArg args) = none) : writeBindingBody args s = answer .refusedRange s := by
  unfold writeBindingBody
  rw [hi, hb]
  rfl

theorem mem_statusActions {old new : PlantBinding} {act : State → State} (h : act ∈ statusActions old new) :
    (act = dispatchTurbine ∧ old.turbineStatus ≠ new.turbineStatus) ∨ act = dispatchBypass := by
  rcases List.mem_append.mp h with ha | ha
  · refine .inl ⟨List.mem_singleton.mp (mem_whenChanged ha), fun he => ?_⟩
    rw [whenChanged, if_pos he] at ha
    cases ha
  · exact .inr (List.mem_singleton.mp (mem_whenChanged ha))

theorem statusActions_of_same {old new : PlantBinding}
    (h : ¬ (old.turbineStatus ≠ new.turbineStatus ∨ old.bypassStatus ≠ new.bypassStatus)) :
    statusActions old new = [] := by
  obtain ⟨hturbine, hbypass⟩ := not_or.mp h
  unfold statusActions whenChanged
  rw [if_pos (not_not.mp hturbine), if_pos (not_not.mp hbypass)]
  rfl

theorem turbine_mem_statusActions {old new : PlantBinding} (h : old.turbineStatus ≠ new.turbineStatus) :
    dispatchTurbine ∈ statusActions old new := by
  unfold statusActions whenChanged
  rw [if_neg h]
  exact List.mem_cons_self

theorem bypass_mem_statusActions {old new : PlantBinding} (h : old.bypassStatus ≠ new.bypassStatus) :
    dispatchBypass ∈ statusActions old new := by
  unfold statusActions whenChanged
  rw [if_neg h]
  exact List.mem_append_right _ List.mem_cons_self

/-- What one action of a queue establishes and the others keep holds once the queue is taken. -/
theorem deliver_establishes {I D : State → Prop} (hi : ∀ s n, I s → I (s.choose n).2)
    (hd : ∀ s n, I s → D s → D (s.choose n).2) {q : List (State → State)} (hg : ∀ act ∈ q, ∀ s, I s → I (act s))
    (hk : ∀ act ∈ q, ∀ s, I s → D s → D (act s)) {act : State → State} (hm : act ∈ q) (ha : ∀ s, I s → D (act s))
    {s : State} (hs : I s) : D (deliver [q] s) :=
  interleave_establishes hi hd _ [q] s le_rfl
    ⟨fun _ h a => List.mem_singleton.mp h ▸ hg a, fun _ h a => List.mem_singleton.mp h ▸ hk a⟩
    (.inr ⟨q, List.mem_singleton_self q, act, hm, ha⟩) hs

section
variable (b : State) (old new : PlantBinding)

theorem rederived_statusAction {act : State → State} (hact : act ∈ statusActions old new) {s : State}
    (h : Rederived b s) :
    Rederived b (act s) ∧ (act s).dispatch.sink = b.sinkFromStatus := by
  rcases mem_statusActions hact with ⟨rfl, -⟩ | rfl
  · exact ⟨h.dispatchTurbine.1, h.dispatchTurbine.2.1⟩
  · exact ⟨h.dispatchBypass.1, h.dispatchBypass.2.1⟩

theorem rederived_statusActions : Rederived b (deliver [statusActions old new] b) :=
  deliver_invariant (Rederived b) (fun _ n h => h.choose n) _
    (fun _ hq _ hact _ h => (rederived_statusAction b old new (List.mem_singleton.mp hq ▸ hact) h).1) b (rederived_refl b)

/-- Where a status role changes, the sink state is derived anew (R141). -/
theorem sink_statusActions (h : old.turbineStatus ≠ new.turbineStatus ∨ old.bypassStatus ≠ new.bypassStatus) :
    (deliver [statusActions old new] b).dispatch.sink = b.sinkFromStatus := by
  have each {act : State → State} (hact : act ∈ statusActions old new) :
      (deliver [statusActions old new] b).dispatch.sink = b.sinkFromStatus :=
    deliver_establishes (I := Rederived b) (D := fun t => t.dispatch.sink = b.sinkFromStatus) (fun _ n ht => ht.choose n)
      (fun t n _ hD => (congrArg DispatchUnit.sink (dispatch_choose t n)).trans hD)
      (fun _ ha _ ht => (rederived_statusAction b old new ha ht).1)
      (fun _ ha _ ht _ => (rederived_statusAction b old new ha ht).2) hact
      (fun _ ht => (rederived_statusAction b old new hact ht).2) (rederived_refl b)
  exact h.elim (fun ht => each (turbine_mem_statusActions ht)) fun hb => each (bypass_mem_statusActions hb)

/-- A change of the bypass role alone leaves the allowed load (R150). -/
theorem allowed_statusActions_same (h : old.turbineStatus = new.turbineStatus) :
    (deliver [statusActions old new] b).dispatch.allowed = b.dispatch.allowed := by
  refine (deliver_invariant (fun t => Rederived b t ∧ t.dispatch.allowed = b.dispatch.allowed) (fun t n ht => ?_) _
    (fun q hq act hact t ht => ?_) b ⟨rederived_refl b, rfl⟩).2
  · exact ⟨ht.1.choose n, (congrArg DispatchUnit.allowed (dispatch_choose t n)).trans ht.2⟩
  · rcases mem_statusActions (List.mem_singleton.mp hq ▸ hact) with ⟨-, hne⟩ | rfl
    · exact absurd h hne
    · obtain ⟨done, -, allowed⟩ := ht.1.dispatchBypass
      exact ⟨done, allowed.trans ht.2⟩

/-- A change of the turbine role has the allowed load computed anew (R150). -/
theorem allowed_statusActions (h : old.turbineStatus ≠ new.turbineStatus) :
    (deliver [statusActions old new] b).dispatch.allowed = b.allowedNow := by
  refine deliver_establishes (I := Rederived b) (D := fun t => t.dispatch.allowed = b.allowedNow)
    (fun _ n ht => ht.choose n) (fun t n _ hD => (congrArg DispatchUnit.allowed (dispatch_choose t n)).trans hD)
    (fun _ ha _ ht => (rederived_statusAction b old new ha ht).1) (fun act ha t ht hD => ?_) (turbine_mem_statusActions h)
    (fun _ ht => ht.dispatchTurbine.2.2) (rederived_refl b)
  rcases mem_statusActions ha with ⟨rfl, -⟩ | rfl
  · exact ht.dispatchTurbine.2.2
  · exact ht.dispatchBypass.2.2.trans hD

/-- What the changed status roles of the plant leave, all their actions taken. -/
theorem statusActions_leave :
    let t := deliver [statusActions old new] b
    Rederived b t ∧
      (old.turbineStatus ≠ new.turbineStatus ∨ old.bypassStatus ≠ new.bypassStatus → t.dispatch.sink = b.sinkFromStatus) ∧
      (old.turbineStatus = new.turbineStatus → t.dispatch.allowed = b.dispatch.allowed) ∧
      (old.turbineStatus ≠ new.turbineStatus → t.dispatch.allowed = b.allowedNow) :=
  ⟨rederived_statusActions b old new, sink_statusActions b old new, allowed_statusActions_same b old new,
    allowed_statusActions b old new⟩

end

/-! ### A line's binding (R58 to R60) -/

theorem sameActuators_lineRebound (l : Line) (old new : LineBinding) (s : State) :
    SameActuators s (lineRebound l old new s) := by
  have calm := calm_sameActuators s
  have job {act : State → State} (ha : JobAction act) : ∀ t, SameActuators s t → SameActuators s (act t) :=
    fun _ ht => calm.jobAction (fun _ _ _ h => h) (fun _ _ h => h) ha ht
  have one {a act : State → State} (ha : act ∈ [a]) (hj : JobAction a) :
      ∀ t, SameActuators s t → SameActuators s (act t) := List.mem_singleton.mp ha ▸ job hj
  refine deliver_invariant (SameActuators s) (fun _ n ht => calm.choose n ht) _ (fun q hq act hact => ?_) s
    (sameActuators_refl s)
  simp only [List.mem_cons, List.not_mem_nil, or_false] at hq
  rcases hq with rfl | rfl | rfl | rfl | rfl
  · exact one (mem_whenChanged hact) (.furnace l)
  · split at hact
    · exact List.mem_singleton.mp hact ▸ fun _ ht => calm.ramChange l ht
    · cases hact
  · exact (List.mem_append.mp hact).elim (fun ha => one (mem_whenChanged ha) .steam)
      fun ha => one (mem_whenChanged ha) .steam
  · exact job (jobAction_of_drum (mem_whenChanged hact))
  · exact one (mem_whenChanged hact) (.trip l false)

section
variable {l : Line} {rec : List Byte} {s : State} (hc : lineRecordCoded rec = true)
include hc

theorem writeLineBinding_inUse
    (hu : ((LineBinding.ofRecord rec).feedBound &&
      (s.binding (otherLine l)).feedGroupIs (LineBinding.ofRecord rec).feedGroup) = true) :
    writeLineBinding l rec s = answer .refusedInUse s := by
  unfold writeLineBinding
  dsimp only
  rw [hc, hu]
  rfl

variable (hu : ((LineBinding.ofRecord rec).feedBound &&
  (s.binding (otherLine l)).feedGroupIs (LineBinding.ofRecord rec).feedGroup) = false)
  (hf : s.lineBindingFits l (LineBinding.ofRecord rec) = true)
include hu hf

theorem writeLineBinding_busy (hd : ramFieldsDiffer (s.binding l) (LineBinding.ofRecord rec) = true)
    (hs : s.inStroke l = true) : writeLineBinding l rec s = answer .refusedBusy s := by
  unfold writeLineBinding
  dsimp only
  rw [hc, hu, hf, hd, hs]
  rfl

/-- A record that replaces the line binding, whatever its changes have the jobs do. -/
theorem writeLineBinding_done
    (hb : ramFieldsDiffer (s.binding l) (LineBinding.ofRecord rec) = false ∨ s.inStroke l = false) :
    ∃ u, writeLineBinding l rec s = answer .done u ∧
      u.lessUpdates = { s with lineBinding := s.lineBinding.set l (LineBinding.ofRecord rec) }.lessUpdates ∧
      SameActuators s u := by
  have free : (ramFieldsDiffer (s.binding l) (LineBinding.ofRecord rec) && s.inStroke l) = false := by
    rw [Bool.and_eq_false_iff]
    exact hb
  unfold writeLineBinding
  dsimp only
  rw [hc, hu, hf, free]
  generalize hv : (if ramFieldsDiffer (s.binding l) (LineBinding.ofRecord rec) then _ else _ : State) = v
  have written :
      v.lessUpdates = { s with lineBinding := s.lineBinding.set l (LineBinding.ofRecord rec) }.lessUpdates := by
    rw [← hv]
    split <;> rfl
  have placed : SameActuators s v := by
    rw [← hv]
    split <;> exact sameActuators_refl s
  exact ⟨_, rfl, (lessUpdates_lineRebound l _ _ v).trans written, placed.trans (sameActuators_lineRebound l _ _ v)⟩

end

/-- A line BINDINGS record of the right length reaches its line. -/
theorem bindingSized_line {r : Request} {l : Line} (hl : r.args.length = 25) (hi : indexArg r.args = l.code) (s : State) :
    bindingSized r s = writeLineBinding l (recordArg r.args) s := by
  unfold bindingSized writeBindingBody
  rw [hi, hl]
  cases l <;> rfl

end Sys2Proof.Machine
end

section
/-! The statement on writes of the bindings. -/

namespace Sys2Proof.Machine

/-- A request that is answered DONE with the actuators as they stood and the jobs' work done. -/
theorem serve_bound {row : Instr} {r : Request} {rest : List Request} {s u v : State} {body : Request → State → Answer}
    (h : Ready row r rest s) (hb : body r (s.beginExecution rest) = answer .done u)
    (hu : u.lessUpdates = (v.beginExecution rest).lessUpdates) (hv : v.ownStation = s.ownStation)
    (ha : SameActuators s u) :
    Answered r rest .done [] s.ownStation (serve row body s) ∧
      (serve row body s).lessNotices = { u.lessNotices with reservation := false } ∧
      (serve row body s).lineBinding = v.lineBinding ∧ (serve row body s).plantBinding = v.plantBinding ∧
      (serve row body s).channels = v.channels ∧ (serve row body s).limits = v.limits ∧
      SameActuators s (serve row body s) := by
  have requests : u.requests = (v.beginExecution rest).requests := read_of_erased State.lessUpdates (fun _ => rfl) hu
  have own : u.ownStation = (v.beginExecution rest).ownStation := read_of_erased State.lessUpdates (fun _ => rfl) hu
  have lines : u.lineBinding = (v.beginExecution rest).lineBinding := read_of_erased State.lessUpdates (fun _ => rfl) hu
  have plant : u.plantBinding = (v.beginExecution rest).plantBinding :=
    read_of_erased State.lessUpdates (fun _ => rfl) hu
  have limits : u.limits = (v.beginExecution rest).limits := read_of_erased State.lessUpdates (fun _ => rfl) hu
  obtain ⟨answered, left⟩ := serve_answered h hb requests (own.trans hv)
  refine ⟨answered, left, (congrArg (fun t => t.lineBinding) left).trans lines,
    (congrArg (fun t => t.plantBinding) left).trans plant,
    (congrArg (fun t => t.channels) left).trans (channels_of_updates hu),
    (congrArg (fun t => t.limits) left).trans limits, ?_⟩
  have actuators : (serve row body s).actuators = u.actuators := congrArg (fun t => t.actuators) left
  unfold SameActuators
  rw [actuators]
  exact ha

/-- A plant BINDINGS record by the fit of its fields (R58). -/
theorem bindingSized_plant {r : Request} {turbine bypass load : Byte}
    (hargs : r.args = [4, 0, 0, turbine, bypass, load]) (s : State) :
    (s.plantFits turbine bypass load → bindingSized r s = answer .done
      (deliver [statusActions s.plantBinding (plantBytes turbine bypass load)]
        (s.withPlant (plantBytes turbine bypass load)))) ∧
      (¬ s.plantFits turbine bypass load → bindingSized r s = answer .refusedRange s) := by
  have hi : indexArg r.args = 0 := by rw [hargs]; exact indexArg_low 4 0 _
  have hl : r.args.length = 6 := by rw [hargs]; rfl
  have body : bindingSized r s = writeBindingBody r.args s := by
    unfold bindingSized
    rw [hi, hl]
    rfl
  have fields : recordArg r.args = [turbine, bypass, load] := by rw [hargs]; rfl
  have record := plantBinding?_bytes s turbine bypass load
  rw [← fields] at record
  refine ⟨fun hf => ?_, fun hf => ?_⟩
  · rw [if_pos (plantFits_iff.mp hf)] at record
    exact body.trans (writeBindingBody_plant hi record)
  · rw [if_neg (mt plantFits_iff.mpr hf)] at record
    exact body.trans (writeBindingBody_plant_refused hi record)

/-- The sink state that two status bytes give (R141). -/
theorem sinkFromStatus_roleByte {s : State} {turbine bypass : Byte} {load : Option Nat}
    (h : s.plantBinding = ⟨roleByte turbine, roleByte bypass, load⟩) : s.sinkFromStatus =
      if (if turbine = 255#8 then none else s.effective turbine.toNat) = some 1 then .full
      else if (if bypass = 255#8 then none else s.effective bypass.toNat) = some 1 then .limited else .none := by
  unfold State.sinkFromStatus State.turbineOnline
  rw [h, roleValue_roleByte, roleValue_roleByte]
  simp only [decide_eq_true_eq]

/-- The allowed load that a turbine status byte gives (R149). -/
theorem allowedNow_roleByte {s : State} {turbine : Byte} {bypass load : Option Nat}
    (h : s.plantBinding = ⟨roleByte turbine, bypass, load⟩) : s.allowedNow =
      if (if turbine = 255#8 then none else s.effective turbine.toNat) = some 1 then
        let load := min (min (s.dispatch.ramped / 60) s.dispatch.steamLoad) s.maxLoad
        (s.dispatch.cap.map fun cap => min load (cap / 60)).getD load
      else 0 := by
  unfold State.allowedNow State.turbineOnline
  rw [h, roleValue_roleByte]
  simp only [decide_eq_true_eq]
  cases s.dispatch.cap <;> rfl

/-- Settles O36: a line's record is tested and posted to the jobs; the plant's has the dispatch unit derive anew what a
changed status role gives. -/
theorem bindingWriteEffect : Obligations.BindingWriteEffect := by
  refine ⟨fun r rest l s ready hl hi hc => ?_, fun r rest turbine bypass load s ready hargs => ?_⟩
  · have body := bindingSized_line hl hi (s.beginExecution rest)
    refine ⟨fun hu => ?_, fun hu hf => ⟨fun hd hs => ?_, fun hb => ?_⟩⟩
    · exact congrArg Host.Outcome.next (serve_refused ready (body.trans (writeLineBinding_inUse hc hu)))
    · exact congrArg Host.Outcome.next (serve_refused ready (body.trans (writeLineBinding_busy hc hu hf hd hs)))
    · obtain ⟨u, done, left, actuators⟩ := writeLineBinding_done (s := s.beginExecution rest) hc hu hf hb
      obtain ⟨answered, -, lines, plant, channels, limits, placed⟩ := serve_bound
        (v := { s with lineBinding := s.lineBinding.set l (LineBinding.ofRecord (recordArg r.args)) }) ready
        (body.trans done) left rfl actuators
      exact ⟨_, rfl, answered, lines, plant, channels, placed, limits⟩
  · intro role fits status changed
    obtain ⟨done, refused⟩ := bindingSized_plant hargs (s.beginExecution rest)
    refine ⟨fun hfits => ?_, fun hfits same => ?_, fun hfits hchanged => ?_⟩
    · exact congrArg Host.Outcome.next (serve_refused ready (refused hfits))
    · have idle : statusActions (s.beginExecution rest).plantBinding (plantBytes turbine bypass load) = [] :=
        statusActions_of_same same
      have written := done hfits
      rw [idle] at written
      exact congrArg Host.Outcome.next (serve_without_notices (u := s.withPlant (plantBytes turbine bypass load)) ready
        written rfl)
    · have written := done hfits
      obtain ⟨derived, sink, same, allowed⟩ := statusActions_leave
        ((s.beginExecution rest).withPlant (plantBytes turbine bypass load)) (s.beginExecution rest).plantBinding
        (plantBytes turbine bypass load)
      replace sink := sink hchanged
      rw [sinkFromStatus_roleByte rfl] at sink
      rw [allowedNow_roleByte rfl] at allowed
      generalize deliver [statusActions (s.beginExecution rest).plantBinding (plantBytes turbine bypass load)]
        ((s.beginExecution rest).withPlant (plantBytes turbine bypass load)) = u at written derived sink allowed same
      obtain ⟨⟨plant, actuators, runback, trip, -⟩, -, hold⟩ := derived
      obtain ⟨answered, left, lines, binding, channels, limits, placed⟩ := serve_bound
        (v := s.withPlant (plantBytes turbine bypass load)) ready written
        (lessUpdates_of_plant plant) rfl actuators
      have dispatch : (serve .writeEntryBindings bindingSized s).dispatch = u.dispatch :=
        congrArg (fun t => t.dispatch) left
      have feed : (serve .writeEntryBindings bindingSized s).feed = u.feed := congrArg (fun t => t.feed) left
      refine ⟨_, rfl, answered, binding, lines, channels, placed, limits,
        (congrArg (fun t => t.runback) left).trans runback, (congrArg (fun t => t.trip) left).trans trip, ?_,
        fun hs l => ?_, fun ht => ?_, fun ht => ?_⟩
      · rw [dispatch]
        exact sink
      · rw [dispatch] at hs ⊢
        exact (congrArg (fun f => (PerLine.get f l).holds.noSink) feed).trans ((hold hs).2 l)
      · rw [dispatch]
        exact same ht
      · rw [dispatch]
        exact allowed ht

end Sys2Proof.Machine
end

section
/-! SUPPORT. The ground of the safety statements: what a line's holds and the charge on its grate turn on, and the
operations that leave it. -/

namespace Sys2Proof.Machine

/-- What the holds of the feed admission units and the charges on the grates turn on: the units themselves, the trip
cause sets, the minutes used, the sink state, the limit table's entries and mode (R98, R106, R110, R112, R113). -/
structure Ground where
  feed : Line → Feed
  causes : Line → TripSet
  minutes : Line → Nat
  sink : Sink
  entries : List LimitEntry
  mode : Mode

def State.ground (s : State) : Ground where
  feed := s.feedOf
  causes l := (s.tripOf l).causes
  minutes l := (s.averagerOf l).minutes
  sink := s.dispatch.sink
  entries := s.limits.entries
  mode := s.limits.mode

/-! ### From what an operation may change -/

theorem ground_of_notices {s t : State} (h : t.lessNotices = s.lessNotices) : t.ground = s.ground :=
  read_of_erased State.lessNotices (fun _ => rfl) h

theorem ground_of_origins {s t : State} (h : t.lessOrigins = s.lessOrigins) : t.ground = s.ground :=
  read_of_erased State.lessOrigins (fun _ => rfl) h

theorem ground_of_capture {s t : State} (h : t.lessCapture = s.lessCapture) : t.ground = s.ground :=
  read_of_erased State.lessCapture (fun _ => rfl) h

theorem ground_noticesSince (before s : State) : (noticesSince before s).ground = s.ground :=
  ground_of_notices (lessNotices_noticesSince before s)

theorem ground_choose (s : State) (n : Nat) : (s.choose n).2.ground = s.ground := by
  rw [choose_eq]
  rfl

/-! ### Writes of one block -/

theorem ground_modTrip (s : State) (l : Line) (g : TripUnit → TripUnit) : (s.modTrip l g).ground =
    { s.ground with causes := fun m => if m = l then (g (s.tripOf l)).causes else (s.tripOf m).causes } := by
  have : (fun m => ((s.modTrip l g).tripOf m).causes) =
      fun m => if m = l then (g (s.tripOf l)).causes else (s.tripOf m).causes :=
    funext fun m => by rw [State.tripOf_modTrip, apply_ite TripUnit.causes]
  unfold State.ground
  rw [this]
  rfl

/-- A write to a trip unit that leaves its cause set. -/
theorem ground_grace (s : State) (l : Line) (n : Nat) : (s.modTrip l fun t => { t with grace := n }).ground = s.ground := by
  rw [ground_modTrip]
  have : (fun m => if m = l then (s.tripOf l).causes else (s.tripOf m).causes) = fun m => (s.tripOf m).causes :=
    funext fun m => by split <;> simp_all
  exact congrArg (fun c => { s.ground with causes := c }) this

/-- A write to an averager that leaves the minutes used. -/
theorem ground_modAverager (s : State) (l : Line) {g : Averager → Averager}
    (h : (g (s.averagerOf l)).minutes = (s.averagerOf l).minutes) : (s.modAverager l g).ground = s.ground := by
  have : (fun m => ((s.modAverager l g).averagerOf m).minutes) = fun m => (s.averagerOf m).minutes :=
    funext fun m => by
      rw [State.averagerOf_modAverager]
      split
      · rename_i hm
        rw [hm, h]
      · rfl
  exact congrArg (fun n => { s.ground with minutes := n }) this

theorem ground_modPollutant (s : State) (l : Line) (p : Pollutant) (g : PollutantState → PollutantState) :
    (s.modPollutant l p g).ground = s.ground := ground_modAverager s l rfl

/-! ### Dispatch and runback -/

theorem ground_recomputeAllowed (pr : Priority) (s : State) : (recomputeAllowed pr s).ground = s.ground := by
  have follow (t : State) : (if t.dispatch.follow then followAllowed t else t).ground = t.ground := by
    split
    · exact ground_of_origins (lessOrigins_followAllowed t)
    · rfl
  unfold recomputeAllowed
  dsimp only
  split
  · rfl
  · split
    · exact (follow _).trans ((ground_of_origins (lessOrigins_turbineEnforce _ _ _)).trans rfl)
    · exact follow _

theorem ground_dispatchSteam (s : State) : (dispatchSteam s).ground = s.ground := ground_recomputeAllowed .routine _

theorem ground_capPosted (cap : Option Nat) (s : State) : (capPosted cap s).ground = s.ground :=
  ground_recomputeAllowed .urgent _

theorem ground_activate (s : State) : (activate s).ground = s.ground := by
  unfold activate
  dsimp only
  split <;> rfl

theorem ground_dispatchTick (s : State) : (dispatchTick s).ground = s.ground := by
  have moved : ((activate s).modDispatch DispatchUnit.moveRamp).ground = (activate s).ground := by
    have : (activate s).dispatch.moveRamp.sink = (activate s).dispatch.sink := by
      unfold DispatchUnit.moveRamp
      dsimp only
      split_ifs <;> rfl
    exact congrArg (fun x => { (activate s).ground with sink := x }) this
  exact (ground_recomputeAllowed .routine _).trans (moved.trans (ground_activate s))

theorem ground_dispatchTimeSet (s : State) : (dispatchTimeSet s).ground = s.ground :=
  (ground_recomputeAllowed .routine _).trans (ground_activate s)

theorem ground_capTaken (s : State) : (capTaken s).ground = s.ground := by
  unfold capTaken
  split
  · rfl
  · exact ground_capPosted _ s

theorem ground_trigger (s : State) : (trigger s).ground = s.ground := ground_capTaken s

theorem ground_condition (c : Condition) (now : Bool) (s : State) : (condition c now s).ground = s.ground := by
  unfold condition
  split
  · rfl
  · dsimp only
    split
    · exact ground_trigger _
    · split <;> rfl

theorem ground_envelopeIdle (s : State) : (envelopeIdle s).ground = s.ground := ground_capPosted none _

theorem ground_runbackTick (s : State) : (runbackTick s).ground = s.ground := by
  unfold runbackTick
  split
  · rfl
  · split <;> rfl
  · unfold releaseStep
    dsimp only
    split
    · exact ground_envelopeIdle s
    · exact ground_capPosted _ _

theorem ground_runbackMaxLoad (s : State) : (runbackMaxLoad s).ground = s.ground := by
  unfold runbackMaxLoad
  split
  · split
    · exact ground_envelopeIdle s
    · rfl
  · rfl

theorem ground_orderHandled (payload : List Byte) (s : State) : (orderHandled payload s).1.ground = s.ground := by
  have scheduled (o : Order) : (schedule o s).1.ground = s.ground := by
    unfold schedule
    split_ifs <;> rfl
  unfold orderHandled
  dsimp only
  split
  · exact (ground_recomputeAllowed .routine _).trans ((ground_activate _).trans (scheduled _))
  · split <;> rfl
  · rfl
  · rfl

theorem ground_handleOrder (f : Frame) (s : State) : (handleOrder f s).ground = s.ground := by
  have acked (st : AckStatus) (u : State) : (orderAck f.src (u16At f.payload 0) st u).ground = u.ground := by
    unfold orderAck
    split
    · rename_i he
      exact ground_of_notices (lessNotices_enterOrigin he)
    · rfl
  unfold handleOrder
  dsimp only
  split
  · exact (acked _ _).trans (ground_orderHandled f.payload s)
  · exact (acked _ _).trans (ground_orderHandled f.payload s)
  · exact (acked _ _).trans (ground_orderHandled f.payload s)

/-! ### Averagers -/

theorem ground_setBand (l : Line) (p : Pollutant) (b : Fin 3) (s : State) : (setBand l p b s).ground = s.ground := by
  have banded := ground_modPollutant s l p fun x => { x with band := b }
  unfold setBand
  dsimp only
  split
  · split
    · exact banded
    · exact (ground_of_origins (lessOrigins_reagentBandChange _ _ _ _ _)).trans banded
  · exact banded

theorem ground_sample (l : Line) (p : Pollutant) (v : Option Int) (fresh : Bool) (s : State) :
    (sample l p v fresh s).ground = s.ground := by
  unfold sample
  split
  · split
    · exact (ground_setBand l p _ _).trans (ground_modPollutant s l p _)
    · rfl
  · rfl

theorem ground_hhLimitChange (l : Line) (p : Pollutant) (s : State) : (hhLimitChange l p s).ground = s.ground := by
  unfold hhLimitChange
  split
  · exact ground_setBand l p _ s
  · rfl

theorem ground_exceedEpisode (l : Line) (p : Pollutant) (b v : Nat) (s : State) :
    (exceedEpisode l p b v s).ground = s.ground := by
  unfold exceedEpisode
  split
  · rfl
  · exact ground_modPollutant s l p fun x => { x with openEpisode := some s.nextEntry }

theorem ground_closeEpisode (l : Line) (p : Pollutant) (b : Nat) (s : State) :
    (closeEpisode l p b s).ground = s.ground := by
  unfold closeEpisode
  split
  · exact ground_modPollutant s l p fun x => { x with openEpisode := none }
  · rfl

theorem ground_halfHourClose (l : Line) (b : Nat) (p : Pollutant) (s : State) :
    (halfHourClose l b p s).ground = s.ground := by
  unfold halfHourClose
  cases halfHourValue (s.pollutantOf l p).means with
  | none => exact ground_modPollutant s l p _
  | some v =>
    dsimp only
    split
    · exact (ground_exceedEpisode l p b v _).trans ((ground_modPollutant _ l p _).trans (ground_modPollutant s l p _))
    · exact (ground_closeEpisode l p b _).trans ((ground_modPollutant _ l p _).trans (ground_modPollutant s l p _))

theorem ground_dayClose (l : Line) (b : Nat) (p : Pollutant) (s : State) : (dayClose l b p s).ground = s.ground := by
  unfold dayClose
  dsimp only
  refine (ground_modPollutant _ l p _).trans ?_
  split <;> rfl

end Sys2Proof.Machine
end

section
/-! SUPPORT. A property of the ground that each operation upon holds, charges and trips keeps is kept by every operation of
the blocks, since all others leave the ground: jobs, ticks, sweeps, arrivals. `Stable` allows any write to a feed admission
unit or a trip unit, so it cannot speak of holds, charges and trip causes; `Guarded` names the operations that write them. -/

namespace Sys2Proof.Machine

/-- A feed admission unit that bears no more than before: holds and reasons as they stood, no greater bed charge, and no
stroke in flight that was not. -/
structure Feed.Eased (f f' : Feed) : Prop where
  bed : f'.bed ≤ f.bed
  holds : f'.holds = f.holds
  reasons : f'.reasons = f.reasons
  engine : ∀ ram target, f'.engine = .inStroke ram target → f.engine = .inStroke ram target

/-- A property of the ground that the operations upon holds, charges and trips keep, each taken whole: within them it may
fail, as where a trip cause stands in its set and TRIPPED is not yet posted. -/
structure Guarded (P : State → Prop) : Prop where
  ground : ∀ {s t}, P s → t.ground = s.ground → P t
  eased : ∀ {s l g}, (s.feedOf l).Eased (g (s.feedOf l)) → P s → P (s.modFeed l g)
  releaseCheck : ∀ {s} l, P s → P (releaseCheck l s)
  addHold : ∀ {s} l {c}, c ≠ .emission → P s → P (addHold l c s)
  removeHold : ∀ {s} l {c}, c ∈ [HoldCause.manual, .furnaceCold, .noRam] → P s → P (removeHold l c s)
  deriveSink : ∀ {s}, P s → P (deriveSink s)
  postReason : ∀ {s} l r, P s → P (postReason l r s)
  clearEmission : ∀ {s} l, P s → P (clearEmission l s).after
  halfHourCloses : ∀ {s} l b, P s → P (halfHourCloses l b s)
  newYear : ∀ {s} l, P s → P (s.modAverager l fun a => { a with minutes := 0 })
  addTripCause : ∀ {s} l c, P s → P (addTripCause l c s)
  tripReset : ∀ {s} l, P s → P (tripReset l s)
  scrub : ∀ {s}, P s → P (scrub s)

namespace Guarded
variable {P : State → Prop} (h : Guarded P) {s : State}
include h

/-! ### Orders left open and NOTICEs -/

theorem inAnyOrder {acts : List (State → State)} (ha : ∀ act ∈ acts, ∀ s, P s → P (act s)) (hs : P s) :
    P (inAnyOrder acts s) :=
  inAnyOrder_invariant P (fun t n ht => h.ground ht (ground_choose t n)) acts ha s hs

theorem deliver {queues : List (List (State → State))} (ha : ∀ q ∈ queues, ∀ act ∈ q, ∀ s, P s → P (act s))
    (hs : P s) : P (deliver queues s) :=
  deliver_invariant P (fun t n ht => h.ground ht (ground_choose t n)) queues ha s hs

theorem noticesSince (before : State) (hs : P s) : P (noticesSince before s) := h.ground hs (ground_noticesSince before s)

theorem asEvent {act : State → State} (ha : ∀ s, P s → P (act s)) (hs : P s) : P (asEvent act s) :=
  h.noticesSince s (ha s hs)

theorem captureOffer (o : CaptureRecord) (hs : P s) : P (captureOffer o s) :=
  h.ground hs (ground_of_capture (lessCapture_captureOffer o s))

theorem portError (k : PortErrorKind) (p : PortId) (hs : P s) : P (portError k p s) :=
  h.ground hs (ground_of_notices (lessNotices_portError k p s))

/-! ### Feed admission -/

theorem originate (e : Nat) (v : Verb) (x : Int) (pr : Priority) (hs : P s) : P (originate e v x pr s) :=
  h.ground hs (ground_of_origins (lessOrigins_originate e v x pr s))

theorem toSettling (l : Line) (hs : P s) : P (s.modFeed l Feed.toSettling) :=
  h.eased ⟨le_rfl, rfl, rfl, fun _ _ he => nomatch he⟩ hs

/-- A write that leaves bed charge, holds, reasons and engine of a feed admission unit. -/
theorem feedSame (l : Line) {g : Feed → Feed} (hb : (g (s.feedOf l)).bed = (s.feedOf l).bed)
    (hh : (g (s.feedOf l)).holds = (s.feedOf l).holds) (hr : (g (s.feedOf l)).reasons = (s.feedOf l).reasons)
    (he : (g (s.feedOf l)).engine = (s.feedOf l).engine) (hs : P s) : P (s.modFeed l g) :=
  h.eased ⟨hb.le, hh, hr, fun _ _ hf => he.symm.trans hf⟩ hs

theorem abortStroke (l : Line) (hs : P s) : P (abortStroke l s) := by
  unfold Machine.abortStroke
  split
  · exact h.toSettling l (h.originate _ _ _ _ hs)
  · exact hs

theorem evalFurnace (l : Line) (hs : P s) : P (evalFurnace l s) := by
  have held : P (Machine.addHold l .furnaceCold s) := h.addHold l (by decide) hs
  have cold : P (if (s.feedOf l).holds.furnaceCold then s
      else
        match ((Machine.addHold l .furnaceCold s).binding l).auxBurner with
        | some e => if 0 < ((Machine.addHold l .furnaceCold s).feedOf l).bed
            then Machine.originate e .set 1 .routine (Machine.addHold l .furnaceCold s)
            else Machine.addHold l .furnaceCold s
        | none => Machine.addHold l .furnaceCold s) := by
    split
    · exact hs
    · split
      · exact keeps_ite (h.originate _ _ _ _ held) held
      · exact held
  unfold Machine.evalFurnace
  dsimp only
  split
  · exact cold
  · split
    · exact cold
    · exact keeps_ite (h.removeHold l (by decide) hs) hs

theorem evalNoRam (l : Line) (hs : P s) : P (evalNoRam l s) :=
  keeps_ite (h.removeHold l (by decide) hs) (h.addHold l (by decide) hs)

theorem ramChange (l : Line) (hs : P s) : P (ramChange l s) := h.releaseCheck l (h.evalNoRam l hs)

theorem postBudget (l : Line) (hs : P s) : P (postBudget l s) := keeps_ite (h.postReason l _ hs) hs

theorem strokeArrives (l : Line) (length : Nat) (source seq : Byte) (hs : P s) :
    P (strokeArrives l length source seq s) :=
  keeps_ite (h.releaseCheck l (h.feedSame l rfl rfl rfl rfl hs)) (h.ground hs rfl)

theorem feedStop (l : Line) (hs : P s) : P (feedStop l s) := h.abortStroke l (h.feedSame l rfl rfl rfl rfl hs)

theorem strokeTimesOut (l : Line) (ram : Nat) (hs : P s) : P (strokeTimesOut l ram s) := by
  have settling := h.toSettling l hs
  have faulted (a : Actuator) : P ((s.modFeed l Feed.toSettling).setActuator ram (some a)) := h.ground settling rfl
  unfold Machine.strokeTimesOut
  dsimp only
  split
  · split
    · exact h.ground (h.originate ram .stop 0 .urgent (h.ramChange l (faulted _))) rfl
    · exact settling
  · exact settling

theorem engineCount (l : Line) (hs : P s) : P (engineCount l s) := by
  unfold Machine.engineCount
  split
  · exact hs
  · have counted : P (s.modFeed l fun f => { f with timeoutCount := f.timeoutCount - 1 }) :=
      h.feedSame l rfl rfl rfl rfl hs
    exact keeps_ite (h.strokeTimesOut l _ counted) counted
  · refine h.eased ⟨le_rfl, rfl, rfl, fun ram target he => ?_⟩ hs
    dsimp only at he
    split at he <;> cases he

theorem feedTick (l : Line) (hs : P s) : P (feedTick l s) := by
  have decayed : P (bedDecay l s) := h.eased ⟨Nat.sub_le _ _, rfl, rfl, fun _ _ he => he⟩ hs
  have expired : P (expireStrokes l (bedDecay l s)) := h.feedSame l rfl rfl rfl rfl decayed
  exact h.releaseCheck l (h.engineCount l expired)

theorem positionUpdate (l : Line) (e : Nat) (v : Option Int) (fresh : Bool) (hs : P s) :
    P (positionUpdate l e v fresh s) := by
  unfold Machine.positionUpdate
  split
  · exact keeps_ite (h.toSettling l hs) hs
  · exact hs

/-! ### Dispatch, trips, averagers -/

theorem dispatchTurbine (hs : P s) : P (dispatchTurbine s) := by
  have noted : P (s.modDispatch fun d => { d with online := s.turbineOnline }) := h.ground hs rfl
  exact h.ground (h.deriveSink noted) (ground_recomputeAllowed _ _)

theorem drumTest (l : Line) (fromReading : Bool) (hs : P s) : P (drumTest l fromReading s) := by
  unfold Machine.drumTest
  split
  · exact keeps_ite (h.addTripCause l _ (keeps_ite (h.ground hs rfl) hs)) hs
  · exact hs

theorem tripSweep (l : Line) (hs : P s) : P (tripSweep l s) := by
  have counted (n : Nat) : P (s.modTrip l fun t => { t with grace := n }) := h.ground hs (ground_grace s l n)
  unfold Machine.tripSweep
  split
  · exact counted 0
  · exact keeps_ite (h.addTripCause l _ (counted _)) (counted _)

theorem graceChange (l : Line) (hs : P s) : P (graceChange l s) := keeps_ite (h.addTripCause l _ hs) hs

theorem scrubTick (hs : P s) : P (scrubTick s) := by
  have counted (n : Nat) : P (s.modLimits fun t => { t with scrubCount := n }) := h.ground hs rfl
  unfold Machine.scrubTick
  split
  · exact hs
  · exact keeps_ite (counted _) (h.scrub (counted 0))

theorem saturationTest (l : Line) (b : Nat) (r : Reagent) (hs : P s) : P (saturationTest l b r s) := by
  have put (n : Nat) : P (s.modAverager l fun a => { a with saturation := a.saturation.set r n }) :=
    h.ground hs (ground_modAverager s l rfl)
  unfold Machine.saturationTest
  dsimp only
  split
  · exact keeps_ite (h.postReason l _ (put _)) (put _)
  · exact keeps_ite hs (put _)

theorem boundaryClose (l : Line) (hs : P s) : P (boundaryClose l s) := by
  have moved : P (s.modAverager l fun a => { a with nextBoundary := (s.averagerOf l).nextBoundary + 600 }) :=
    h.ground hs (ground_modAverager s l rfl)
  have blocks := inTurn_holds (xs := Pollutant.all) (act := blockClose l (s.averagerOf l).nextBoundary)
    (fun p t ht => h.ground ht (ground_modPollutant t l p _)) moved
  have tested := inTurn_holds (xs := Reagent.all) (fun r _ => h.saturationTest l (s.averagerOf l).nextBoundary r) blocks
  have halved (c : Prop) [Decidable c] := keeps_ite (c := c) (h.halfHourCloses l (s.averagerOf l).nextBoundary tested) tested
  exact keeps_ite (inTurn_holds (fun p t ht => h.ground ht (ground_dayClose l _ p t)) (halved _)) (halved _)

theorem averagerTick (l : Line) (hs : P s) : P (averagerTick l s) :=
  keeps_ite (h.asEvent (fun _ => h.boundaryClose l) hs) hs

theorem averagerTimeSet (l : Line) (hs : P s) : P (averagerTimeSet l s) := by
  unfold Machine.averagerTimeSet
  split
  · exact h.averagerTick l hs
  · exact inTurn_holds (fun p t ht => h.ground ht (ground_modPollutant t l p _)) (h.ground hs (ground_modAverager s l rfl))

theorem episodeCapChange (l : Line) (hs : P s) : P (episodeCapChange l s) := keeps_ite (h.postReason l _ hs) hs

/-! ### Channels and limit changes -/

theorem jobAction {act : State → State} (ha : JobAction act) (hs : P s) : P (act s) := by
  cases ha with
  | furnace l => exact h.evalFurnace l hs
  | position l e v fresh => exact h.positionUpdate l e v fresh hs
  | sample l p v fresh => exact h.ground hs (ground_sample l p v fresh s)
  | steam => exact h.ground hs (ground_dispatchSteam s)
  | turbine => exact h.dispatchTurbine hs
  | bypass => exact h.deriveSink hs
  | drum l => exact h.ground hs (ground_condition _ _ s)
  | cap => exact h.ground hs (ground_capTaken s)
  | trip l fromReading => exact h.drumTest l fromReading hs

theorem postUpdates (goodAt : Option Nat) (fromReading : Bool) (channels : List Nat) (hs : P s) :
    P (postUpdates goodAt fromReading channels s) :=
  h.deliver (fun _ hq _ hact _ => h.jobAction (jobAction_of_jobQueues hq hact)) hs

/-- A channel's record written, with the updates that follow. -/
theorem postFrom_setChannel (goodAt : Option Nat) (fromReading : Bool) (x i : Nat) (c : Option Channel) (hs : P s) :
    P (postFrom goodAt fromReading x (s.setChannel i c)) :=
  h.postUpdates goodAt fromReading _ (h.ground (t := s.setChannel i c) hs rfl)

theorem takeReading (r : Reading) (hs : P s) : P (takeReading r s) := by
  unfold Machine.takeReading
  split
  · split
    · exact h.postFrom_setChannel _ _ _ _ _ hs
    · exact hs
  · exact h.ground hs rfl

theorem takeSample (payload : List Byte) (hs : P s) : P (takeSample payload s) :=
  keeps_ite (inTurn_holds (fun r _ => h.asEvent fun _ => h.takeReading r) hs) (h.ground hs rfl)

theorem checkChannel (i : Nat) (hs : P s) : P (checkChannel i s) := by
  unfold Machine.checkChannel
  split
  · exact hs
  · dsimp only
    split
    · exact h.postUpdates _ _ _ (h.ground hs rfl)
    · exact h.ground hs rfl

theorem checkChannels (first past : Nat) (hs : P s) : P (checkChannels first past s) :=
  inTurn_holds (fun i _ => h.asEvent fun _ => h.checkChannel i) hs

theorem deliverLimit (i : LimitId) (hs : P s) : P (deliverLimit i s) := by
  unfold Machine.deliverLimit
  split
  · exact h.evalFurnace _ hs
  · exact h.evalFurnace _ hs
  · exact h.releaseCheck _ hs
  · exact h.releaseCheck _ hs
  · exact hs
  · exact hs
  · exact hs
  · exact h.episodeCapChange _ hs
  · exact h.ground hs (ground_hhLimitChange _ _ s)
  · exact hs
  · exact h.postBudget _ hs
  · refine h.deliver (fun q hq act hact t => h.jobAction ?_) hs
    simp only [List.mem_cons, List.not_mem_nil, or_false] at hq
    rcases hq with rfl | rfl
    · rw [List.mem_singleton.mp hact]
      exact .steam
    · exact jobAction_of_drum hact
  · exact h.drumTest _ _ hs
  · exact h.graceChange _ hs
  · refine h.inAnyOrder (fun act hact t ht => ?_) hs
    simp only [List.mem_cons, List.not_mem_nil, or_false] at hact
    rcases hact with rfl | rfl
    · exact h.ground ht (ground_recomputeAllowed .routine t)
    · exact h.ground ht (ground_runbackMaxLoad t)
  · exact h.ground hs (ground_dispatchSteam s)
  · exact hs
  · exact hs

/-- An entry written, where the property holds of the table with the entry in place. -/
theorem writeLimit {i : LimitId} {e : LimitEntry} (hs : P (s.withEntry i e)) : P (writeLimit i e s) :=
  keeps_ite hs (h.deliverLimit i hs)

/-! ### Ticks and sweeps -/

theorem takeTick (u : TickUnit) (hs : P s) : P (takeTick u s) := by
  refine h.asEvent (fun t ht => ?_) hs
  cases u with
  | feed l => exact h.feedTick l ht
  | averager l => exact h.averagerTick l ht
  | dispatch => exact h.ground ht (ground_dispatchTick t)
  | runback => exact h.ground ht (ground_runbackTick t)
  | limits => exact h.scrubTick ht

theorem takeOwedTick (u : TickUnit) (hs : P s) : P (takeOwedTick u s) := keeps_ite (h.takeTick u (h.ground hs rfl)) hs

theorem settleTick (hs : P s) : P (settleTick s) := inTurn_holds (fun u _ => h.takeOwedTick u) hs

theorem takeOwedSweep (u : SweepUnit) (hs : P s) : P (takeOwedSweep u s) := by
  refine keeps_ite ?_ hs
  cases u with
  | channels => exact h.checkChannels _ _ (h.ground hs rfl)
  | trip l => exact h.asEvent (fun _ => h.tripSweep l) (h.ground hs rfl)

theorem settleSweep (hs : P s) : P (settleSweep s) := inTurn_holds (fun u _ => h.takeOwedSweep u) hs

theorem settleAll (hs : P s) : P (settleAll s) := h.settleSweep (h.settleTick hs)

theorem tickBrings (u : TickUnit) (falls : State → Bool) (hs : P s) : P (tickBrings u falls s) :=
  Stable.unlessHeld (fun _ => keeps_ite (h.takeOwedTick u hs) hs) hs

theorem secondTick (order : List TickUnit) (hs : P s) : P (secondTick order s) := by
  have counted (u : State) (hu : P u) :
      P { u with plantTime := satSucc 4294967295 u.plantTime, owedTick := TickUnit.all } := h.ground hu rfl
  exact Stable.unlessHeld (fun _ => inTurn_holds (fun u _ => h.takeOwedTick u) (counted _ (h.settleTick hs))) hs

theorem sweep (order : List SweepUnit) (hs : P s) : P (sweep order s) := by
  have counted (u : State) (hu : P u) : P { u with owedSweep := SweepUnit.all, sweepNext := 0 } := h.ground hu rfl
  exact Stable.unlessHeld (fun _ => inTurn_holds (fun u _ => h.takeOwedSweep u) (counted _ (h.settleSweep hs))) hs

theorem channelLost (c : Nat) (hs : P s) : P (channelLost c s) :=
  Stable.unlessHeld (fun _ => keeps_ite (h.checkChannels _ _ (h.ground hs rfl)) hs) hs

theorem drumGraceExpiry (l : Line) (hs : P s) : P (drumGraceExpiry l s) :=
  Stable.unlessHeld (fun _ => keeps_ite (h.takeOwedSweep _ hs) hs) hs

theorem storageFault (code : BitVec 16) (hs : P s) : P (storageFault code s) := by
  unfold Machine.storageFault
  split
  · exact h.ground hs rfl
  · exact hs

theorem setTime (time : Nat) (hs : P s) : P (setTime time s).2 := by
  have event (u : State) (hu : P u) : P (timeSetEvent { u with plantTime := time }) := by
    refine h.inAnyOrder (fun act hact t ht => ?_) (h.ground hu rfl)
    simp only [List.mem_cons, List.not_mem_nil, or_false] at hact
    rcases hact with rfl | rfl | rfl
    · exact h.averagerTimeSet .one ht
    · exact h.averagerTimeSet .two ht
    · exact h.ground ht (ground_dispatchTimeSet t)
  have settled := h.settleTick hs
  rw [setTime_eq]
  generalize Machine.settleTick s = u at settled ⊢
  split
  · exact event u settled
  · exact hs

/-! ### Arrivals -/

theorem forwardAs (p : PortId) (f : Frame) (d : Disposition) (src : Option CaptureSource) (hs : P s) :
    P (forwardAs p f d src s).after := h.ground hs (ground_of_origins (lessOrigins_forwardAs p f d src s))

theorem carry (p : PortId) (f : Frame) (hs : P s) : P (carry p f s).after := by
  unfold Machine.carry
  split
  · exact h.forwardAs _ _ _ _ hs
  · exact h.forwardAs _ _ _ _ hs

theorem applyVerdict (f : Frame) (v : Verdict) (hs : P s) : P (applyVerdict f v s).after := by
  cases v with
  | unchanged => exact h.forwardAs _ _ _ _ hs
  | rewritten w => exact h.forwardAs _ _ _ _ hs
  | absorbStroke l n => exact h.strokeArrives l n _ _ hs
  | absorbStop l => exact h.feedStop l hs
  | withhold => exact h.ground hs rfl

theorem guardFrame (f : Frame) (hs : P s) : P (guardFrame f s).after := by
  unfold Machine.guardFrame
  split
  · exact h.applyVerdict f _ hs
  · split
    · exact h.applyVerdict f _ (h.ground hs rfl)
    · exact h.applyVerdict f _ hs

theorem actOn (a : Action) (p : PortId) (f : Frame) (hs : P s) : P (actOn a p f s).after := by
  cases a with
  | forward => exact h.carry p f hs
  | drop => exact hs
  | samples =>
    unfold Machine.actOn
    dsimp only
    split
    · exact h.forwardAs _ _ _ _ (h.takeSample _ hs)
    · exact h.carry p f hs
  | guard =>
    unfold Machine.actOn
    dsimp only
    split
    · exact h.guardFrame f hs
    · exact h.forwardAs _ _ _ _ hs

theorem finishArrival (p : PortId) (bytes : List Byte) (slot : Option CaptureSource) (x : Decided) (hx : P x.after) :
    P (finishArrival p bytes slot x) := by
  have offered : P (Machine.inAnyOrder
      (arrivalOffers p bytes x.after.plantTime x.disposition (x.sources slot)) { x.after with tripOffers := 0 }) := by
    refine h.inAnyOrder (fun act hact t ht => ?_) (h.ground hx rfl)
    obtain ⟨src, -, rfl⟩ := List.mem_map.mp hact
    exact h.captureOffer _ ht
  exact keeps_ite (h.portError _ _ offered) offered

theorem frameArrival (p : PortId) (bytes : List Byte) (hs : P s) : P (frameArrival p bytes s) := by
  have stray : P (Machine.portError .stray p s) := h.portError _ _ hs
  have request (f : Frame) : P (requestArrives f s) := keeps_ite (h.ground hs rfl) (h.portError _ _ hs)
  have order (f : Frame) : P (orderArrives f s) := keeps_ite (h.ground hs (ground_handleOrder f s)) (h.portError _ _ hs)
  have matched (f : Frame) : P (matchFrame p bytes f s) := by
    unfold matchFrame
    split
    · exact h.finishArrival _ _ _ _ (h.carry p f hs)
    · exact h.finishArrival _ _ _ _ (h.actOn _ p f hs)
  refine Stable.unlessHeld (fun _ => h.noticesSince s ?_) hs
  exact keeps_ite hs (keeps_ite (h.portError _ _ hs) (keeps_ite (h.portError _ _ hs)
    (keeps_ite (keeps_ite (request _) (keeps_ite (order _) stray)) (matched _))))

end Guarded

end Sys2Proof.Machine
end

section
/-! SUPPORT. A property of the ground under the requests and the commands that write neither the limit table nor its mode. -/

namespace Sys2Proof.Machine

theorem ground_actuatorWriteBounds (entry : Nat) (before : Option Actuator) (s : State) :
    (actuatorWriteBounds entry before s).ground = s.ground := by
  have rewritten (n : Nat) (b : Bound) : (s.rewrite n b).1.ground = s.ground := ground_of_origins (lessOrigins_rewrite s n b)
  unfold actuatorWriteBounds
  split
  · rename_i a _
    split
    · exact keeps_ite (P := fun t => t.ground = s.ground)
        ((ground_of_origins (lessOrigins_floorRise _ _ _)).trans (rewritten a.number (.upper a.max)))
        (rewritten a.number (.upper a.max))
    · split
      · exact keeps_ite (P := fun t => t.ground = s.ground) rfl (rewritten a.number (.upper s.dispatch.allowed))
      · rfl
  · rfl

theorem ground_enableOccasions (before : Attention) (s : State) : (enableOccasions before s).ground = s.ground := by
  refine ground_of_notices (inTurn_keeps State.lessNotices _ _ (fun c t => ?_) s)
  split
  · exact lessNotices_noticeOccasion c t
  · rfl

theorem ground_writeNotices (station set : Nat) (s : State) : (writeNotices station set s).ground = s.ground :=
  ground_enableOccasions _ _

/-- The requests that write limit table or mode (R65 to R71). -/
def writesTable : Instr → Bool
  | .setLimit => true
  | .setOverride => true
  | .clearOverride => true
  | .freeze => true
  | _ => false

namespace Guarded
variable {P : State → Prop} (h : Guarded P) {s : State}
include h

/-! ### Form tests and execution -/

theorem serve {body : Request → State → Answer} (hb : ∀ r s, P s → P (body r s).after) (row : Instr) (hs : P s) :
    P (serve row body s) := by
  unfold Machine.serve
  split
  · rename_i r rest _
    have begun : P (s.beginExecution rest) := h.ground hs rfl
    have answered := h.noticesSince (s.beginExecution rest) (hb r _ begun)
    exact h.ground answered rfl
  · exact hs

theorem serve_sized {body : List Byte → State → Answer} (hb : ∀ args s, P s → P (body args s).after) (row : Instr)
    (n : Nat) (hs : P s) : P (Machine.serve row (sized n body) s) :=
  h.serve (fun r _ => Stable.sized hb n r) row hs

theorem serve_confirmed {body : List Byte → State → Answer} (hb : ∀ args s, P s → P (body args s).after) (row : Instr)
    (n : Nat) (hs : P s) : P (Machine.serve row (confirmed n body) s) := by
  refine h.serve (fun r s hs => ?_) row hs
  unfold confirmed
  split
  · exact hs
  · split
    · exact hb _ s hs
    · exact h.captureOffer _ hs

/-! ### WRITE_ENTRY and DELETE_ENTRY -/

theorem readTableBody (args : List Byte) (hs : P s) : P (readTableBody args s).after := by
  unfold Machine.readTableBody
  dsimp only
  split
  · exact hs
  · split
    · exact hs
    · exact h.ground hs rfl

theorem writeMatchBody (args : List Byte) (hs : P s) : P (writeMatchBody args s).after := by
  unfold Machine.writeMatchBody
  split
  · exact hs
  · split
    · exact h.ground hs rfl
    · exact hs

theorem pointInsertBody (args : List Byte) (hs : P s) : P (pointInsertBody args s).after := by
  unfold Machine.pointInsertBody
  split
  · exact hs
  · split
    · exact hs
    · exact h.ground hs rfl

theorem pointUpdateBody (args : List Byte) (hs : P s) : P (pointUpdateBody args s).after := by
  unfold Machine.pointUpdateBody
  split
  · split
    · rename_i f x _ _ _ c _
      have written : P (s.setChannel x (some (c.rewritten f))) := h.ground hs rfl
      split
      · exact hs
      · dsimp only
        split
        · exact h.postUpdates _ _ _ written
        · split
          · exact h.postUpdates _ _ _ written
          · exact written
    · exact hs
  · exact hs

theorem deletePointBody (args : List Byte) (hs : P s) : P (deletePointBody args s).after := by
  unfold Machine.deletePointBody
  split
  · exact hs
  · split
    · exact hs
    · exact h.ground hs rfl

theorem ramWritten (entry : Nat) (old : Option Actuator) (new : Actuator) (hs : P s) : P (ramWritten entry old new s) := by
  unfold Machine.ramWritten
  split
  · exact keeps_ite hs (inTurn_holds (fun l _ ht => keeps_ite (h.ramChange l ht) ht) hs)
  · exact hs

/-- An actuator entry written, with the change of rams that follows. -/
theorem ramWritten_setActuator (entry : Nat) (old : Option Actuator) (new : Actuator) (hs : P s) :
    P (Machine.ramWritten entry old new (s.setActuator entry (some new))) :=
  h.ramWritten _ _ _ (h.ground (t := s.setActuator entry (some new)) hs rfl)

theorem writeActuatorBody (args : List Byte) (hs : P s) : P (writeActuatorBody args s).after := by
  unfold Machine.writeActuatorBody
  dsimp only
  split
  · exact hs
  · split
    · exact hs
    · split_ifs
      · exact hs
      · exact hs
      · exact hs
      · exact hs
      · exact hs
      · exact h.ground (h.ramWritten_setActuator _ _ _ hs) (ground_actuatorWriteBounds _ _ _)

theorem deleteActuatorBody (args : List Byte) (hs : P s) : P (deleteActuatorBody args s).after := by
  unfold Machine.deleteActuatorBody
  dsimp only
  split
  · exact hs
  · split
    · exact hs
    · split
      · exact hs
      · exact h.ground hs rfl

theorem lineRebound (l : Line) (old new : LineBinding) (hs : P s) : P (lineRebound l old new s) := by
  refine h.deliver (fun q hq act hact t ht => ?_) hs
  have one {a : State → State} (ha : act ∈ [a]) (hj : JobAction a) : P (act t) :=
    List.mem_singleton.mp ha ▸ h.jobAction hj ht
  simp only [List.mem_cons, List.not_mem_nil, or_false] at hq
  rcases hq with rfl | rfl | rfl | rfl | rfl
  · exact one (mem_whenChanged hact) (.furnace l)
  · split at hact
    · exact List.mem_singleton.mp hact ▸ h.ramChange l ht
    · cases hact
  · exact (List.mem_append.mp hact).elim (fun ha => one (mem_whenChanged ha) .steam)
      fun ha => one (mem_whenChanged ha) .steam
  · exact h.jobAction (jobAction_of_drum (mem_whenChanged hact)) ht
  · exact one (mem_whenChanged hact) (.trip l false)

theorem writeLineBinding (l : Line) (rec : List Byte) (hs : P s) : P (writeLineBinding l rec s).after := by
  have bound : P { s with lineBinding := s.lineBinding.set l (LineBinding.ofRecord rec) } := h.ground hs rfl
  unfold Machine.writeLineBinding
  dsimp only
  split_ifs
  · exact hs
  · exact hs
  · exact hs
  · exact hs
  · exact h.lineRebound _ _ _ (h.feedSame l rfl rfl rfl rfl bound)
  · exact h.lineRebound _ _ _ bound

theorem writeBindingBody (args : List Byte) (hs : P s) : P (writeBindingBody args s).after := by
  unfold Machine.writeBindingBody
  split
  · split
    · exact hs
    · refine h.deliver (fun q hq act hact t ht => ?_) (h.ground hs rfl)
      rw [List.mem_singleton.mp hq] at hact
      rcases List.mem_append.mp hact with ha | ha
      · rw [List.mem_singleton.mp (mem_whenChanged ha)]
        exact h.jobAction .turbine ht
      · rw [List.mem_singleton.mp (mem_whenChanged ha)]
        exact h.jobAction .bypass ht
  · exact h.writeLineBinding _ _ hs
  · exact h.writeLineBinding _ _ hs
  · exact hs

theorem bindingSized (r : Request) (hs : P s) : P (bindingSized r s).after := by
  unfold Machine.bindingSized
  rw [apply_ite Answer.after]
  exact keeps_ite (h.writeBindingBody _ hs) hs

theorem writeFeedSettingsBody (args : List Byte) (hs : P s) : P (writeFeedSettingsBody args s).after := by
  unfold Machine.writeFeedSettingsBody
  dsimp only
  split
  · exact hs
  · split
    · exact Stable.answered _ (h.feedSame _ rfl rfl rfl rfl hs)
    · exact hs

theorem writeRunbackBody (args : List Byte) (hs : P s) : P (writeRunbackBody args s).after := by
  unfold Machine.writeRunbackBody
  dsimp only
  iterate 6
    split
    · exact hs
  exact h.ground hs rfl

theorem writeDispatchBody (args : List Byte) (hs : P s) : P (writeDispatchBody args s).after := by
  unfold Machine.writeDispatchBody
  dsimp only
  split_ifs
  · exact hs
  · exact hs
  · exact Stable.answered _ (h.ground hs ((ground_of_origins (lessOrigins_followAllowed _)).trans rfl))
  · exact Stable.answered _ (h.ground hs rfl)

theorem writeNoticesBody (args : List Byte) (hs : P s) : P (writeNoticesBody args s).after := by
  unfold Machine.writeNoticesBody
  dsimp only
  split_ifs
  · exact hs
  · exact hs
  · exact h.ground hs (ground_writeNotices _ _ s)

theorem setNoticesBody (args : List Byte) (hs : P s) : P (setNoticesBody args s).after := by
  unfold Machine.setNoticesBody
  dsimp only
  split
  · exact hs
  · exact h.ground hs (ground_writeNotices _ _ s)

/-! ### Requests that write no table record -/

theorem changeChannel (x : Nat) (c : Channel) (hs : P s) : P (changeChannel x c s).after :=
  h.postFrom_setChannel _ _ _ _ _ hs

theorem setChannelServiceBody (args : List Byte) (hs : P s) : P (setChannelServiceBody args s).after := by
  refine Stable.onChannel (fun x c => ?_) hs
  split
  · exact h.changeChannel _ _ hs
  · exact h.changeChannel _ _ hs
  · exact hs

theorem rearmChannelBody (args : List Byte) (hs : P s) : P (rearmChannelBody args s).after := by
  refine Stable.onChannel (fun x c => ?_) hs
  split
  · exact h.changeChannel _ _ hs
  · exact hs

theorem enableRamBody (args : List Byte) (hs : P s) : P (enableRamBody args s).after := by
  unfold Machine.enableRamBody
  dsimp only
  split
  · exact hs
  · split
    · exact hs
    · split_ifs
      · exact hs
      · exact hs
      · exact Stable.answered _ (h.ramWritten_setActuator _ _ _ hs)

theorem holdFeedBody (args : List Byte) (hs : P s) : P (holdFeedBody args s).after := by
  refine Stable.onLine (fun l => ?_) hs
  split
  · exact hs
  · exact h.addHold l (by decide) hs

theorem clearHoldBody (args : List Byte) (hs : P s) : P (clearHoldBody args s).after := by
  refine Stable.onLine (fun l => ?_) hs
  split
  · exact hs
  · split
    · exact h.removeHold l (by decide) hs
    · exact hs
  · exact h.clearEmission l hs
  · split
    · exact hs
    · exact hs

theorem tripBody (args : List Byte) (hs : P s) : P (tripBody args s).after := by
  refine Stable.onLine (fun l => ?_) hs
  split
  · exact hs
  · exact h.addTripCause l _ hs

theorem stopRunbackBody (args : List Byte) (hs : P s) : P (stopRunbackBody args s).after := by
  unfold Machine.stopRunbackBody
  split_ifs
  · exact hs
  · exact hs
  · exact h.ground hs (ground_envelopeIdle s)

theorem releaseCaptureBody (args : List Byte) (hs : P s) : P (releaseCaptureBody args s).after := by
  unfold Machine.releaseCaptureBody
  dsimp only
  split
  · exact hs
  · split
    · exact hs
    · exact h.ground hs rfl

theorem clearAttentionBody (args : List Byte) (hs : P s) : P (clearAttentionBody args s).after := by
  unfold Machine.clearAttentionBody
  dsimp only
  split
  · exact hs
  · split
    · exact h.ground hs rfl
    · exact hs

theorem clearPortErrorsBody (args : List Byte) (hs : P s) : P (clearPortErrorsBody args s).after := by
  unfold Machine.clearPortErrorsBody
  dsimp only
  split
  · exact h.ground hs rfl
  · exact h.ground hs rfl
  · exact h.ground hs rfl
  · exact hs

/-! ### Transmissions and links -/

theorem unlessHeld_modPort {act : State → State} {p : PortId} {g : Port → Port} (ha : ∀ s, act s = s ∨ act s = s.modPort p g)
    (hs : P s) : P (unlessHeld act s) := by
  refine Stable.unlessHeld (fun _ => ?_) hs
  rcases ha s with he | he
  · rwa [he]
  · rw [he]
    exact h.ground hs rfl

/-! ### Every command -/

/-- Every command but a reset and those that write limit table or mode. -/
theorem exec {c : Instr} (hc : isReset c = false) (hl : writesTable c = false) {t : State} (hs : P s)
    (hx : Machine.exec c s = .next t) : P t := by
  have next {u : State} (hu : P u) (he : Machine.exec c s = .next u) : P t := by
    rw [he] at hx
    cases hx
    exact hu
  cases c with
  | powerOn straps => cases hc
  | resetNAssert => cases hc
  | lineReset straps => cases hc
  | restart => cases hc
  | setLimit => cases hl
  | setOverride => cases hl
  | clearOverride => cases hl
  | freeze => cases hl
  | linkDown p => exact next (h.unlessHeld_modPort (fun _ => .inr rfl) hs) rfl
  | linkUp p => exact next (h.unlessHeld_modPort (fun _ => ite_eq_or_eq _ _ _) hs) rfl
  | frameArrival p bytes => exact next (h.frameArrival p bytes hs) rfl
  | transmissionStart p => exact next (h.unlessHeld_modPort (fun _ => .inr rfl) hs) rfl
  | transmissionCompletion p => exact next (h.unlessHeld_modPort (fun _ => (ite_eq_or_eq _ _ _).symm) hs) rfl
  | secondTick order => exact next (h.secondTick order hs) rfl
  | strokeExpiry l => exact next (h.tickBrings _ _ hs) rfl
  | strokeTimeout l => exact next (h.tickBrings _ _ hs) rfl
  | settleEnd l => exact next (h.tickBrings _ _ hs) rfl
  | orderActivation => exact next (h.tickBrings _ _ hs) rfl
  | runbackHoldExpiry => exact next (h.tickBrings _ _ hs) rfl
  | integrityScrub => exact next (h.tickBrings _ _ hs) rfl
  | storageFault code => exact next (h.storageFault code hs) rfl
  | boundaryClose l => exact next (h.tickBrings _ _ hs) rfl
  | sweep order => exact next (h.sweep order hs) rfl
  | channelLost x => exact next (h.channelLost x hs) rfl
  | drumGraceExpiry l => exact next (h.drumGraceExpiry l hs) rfl
  | unknownRequest => exact next (h.serve (fun _ _ hs => hs) _ hs) rfl
  | writeEntryReadOnly => exact next (h.serve (fun _ _ hs => hs) _ hs) rfl
  | deleteEntryRefused => exact next (h.serve (fun _ _ hs => hs) _ hs) rfl
  | readTable => exact next (h.serve_sized (fun args _ => h.readTableBody args) _ _ hs) rfl
  | writeEntryMatch => exact next (h.serve_sized (fun args _ => h.writeMatchBody args) _ _ hs) rfl
  | pointInsert => exact next (h.serve_sized (fun args _ => h.pointInsertBody args) _ _ hs) rfl
  | pointUpdate => exact next (h.serve_sized (fun args _ => h.pointUpdateBody args) _ _ hs) rfl
  | writeEntryActuators => exact next (h.serve_sized (fun args _ => h.writeActuatorBody args) _ _ hs) rfl
  | writeEntryBindings => exact next (h.serve (fun r _ => h.bindingSized r) _ hs) rfl
  | writeEntryFeedSettings => exact next (h.serve_sized (fun args _ => h.writeFeedSettingsBody args) _ _ hs) rfl
  | writeEntryRunback => exact next (h.serve_sized (fun args _ => h.writeRunbackBody args) _ _ hs) rfl
  | writeEntryDispatch => exact next (h.serve_sized (fun args _ => h.writeDispatchBody args) _ _ hs) rfl
  | writeEntryNotices => exact next (h.serve_sized (fun args _ => h.writeNoticesBody args) _ _ hs) rfl
  | deleteEntryPoints => exact next (h.serve_sized (fun args _ => h.deletePointBody args) _ _ hs) rfl
  | deleteEntryActuators => exact next (h.serve_sized (fun args _ => h.deleteActuatorBody args) _ _ hs) rfl
  | setTime => exact next (h.serve_sized (fun _ _ => h.setTime _) _ _ hs) rfl
  | setChannelService => exact next (h.serve_sized (fun args _ => h.setChannelServiceBody args) _ _ hs) rfl
  | rearmChannel => exact next (h.serve_sized (fun args _ => h.rearmChannelBody args) _ _ hs) rfl
  | enableRam => exact next (h.serve_sized (fun args _ => h.enableRamBody args) _ _ hs) rfl
  | holdFeed => exact next (h.serve_sized (fun args _ => h.holdFeedBody args) _ _ hs) rfl
  | clearHold => exact next (h.serve_sized (fun args _ => h.clearHoldBody args) _ _ hs) rfl
  | trip => exact next (h.serve_sized (fun args _ => h.tripBody args) _ _ hs) rfl
  | tripReset => exact next (h.serve_confirmed (fun _ _ ht => Stable.onLine (fun l => h.tripReset l ht) ht) _ _ hs) rfl
  | stopRunback => exact next (h.serve_sized (fun args _ => h.stopRunbackBody args) _ _ hs) rfl
  | newYear => exact next (h.serve_confirmed (fun _ _ ht => Stable.onLine (fun l => h.newYear l ht) ht) _ _ hs) rfl
  | readStatus => exact next (h.serve_sized (body := readStatusBody) (fun _ _ hs => hs) _ _ hs) rfl
  | readCapture => exact next (h.serve_sized (fun args _ => Stable.readCaptureBody args) _ _ hs) rfl
  | releaseCapture => exact next (h.serve_sized (fun args _ => h.releaseCaptureBody args) _ _ hs) rfl
  | clearAttention => exact next (h.serve_sized (fun args _ => h.clearAttentionBody args) _ _ hs) rfl
  | clearPortErrors => exact next (h.serve_sized (fun args _ => h.clearPortErrorsBody args) _ _ hs) rfl
  | setNotices => exact next (h.serve_sized (fun args _ => h.setNoticesBody args) _ _ hs) rfl

end Guarded

end Sys2Proof.Machine
end

section
/-! SUPPORT. A property of the ground under the resets, where the base states of LINE and SOFT have it. -/

namespace Sys2Proof.Machine

namespace Guarded
variable {P : State → Prop} (h : Guarded P) {s : State}
include h

theorem resetScrub (hs : P s) : P (resetScrub s) := by
  unfold Machine.resetScrub
  split
  · exact h.scrub hs
  · exact hs

theorem assertReset (hs : P s) : P (assertReset s) := by
  cases hr : s.resetAsserted with
  | true => exact (assertReset_of_held hr).symm ▸ hs
  | false =>
    rw [assertReset_of_released hr]
    have noted (u : State) : (asserted u).ground = u.ground := by
      have (l : Line) : ((asserted u).averagerOf l).minutes = (u.averagerOf l).minutes := by cases l <;> rfl
      exact congrArg (fun n => { u.ground with minutes := n }) (funext this)
    exact h.ground (h.settleAll hs) (noted _)

theorem lineReset (hb : ∀ straps s, P s → P (lineBase straps s)) (straps : BitVec 8) (hs : P s) :
    P (lineReset straps s) :=
  h.postBudget .two (h.postBudget .one (h.resetScrub (hb straps _ (h.assertReset hs))))

theorem dispatchRestarted (hs : P s) : P (dispatchRestarted s) := by
  have read : P (s.modDispatch fun d =>
      { d with steamLoad := s.contribution .one + s.contribution .two, online := s.turbineOnline }) := h.ground hs rfl
  exact h.ground (h.deriveSink read) (ground_recomputeAllowed _ _)

theorem evalSinkAndRams (l : Line) (hs : P s) : P (evalSinkAndRams l s) :=
  h.evalNoRam l (keeps_ite (h.addHold l (by decide) hs) hs)

theorem restartEvaluated (hs : P s) : P (restartEvaluated s) := by
  have jobs : P (Machine.inAnyOrder [Machine.dispatchRestarted, Machine.evalFurnace .one, Machine.evalFurnace .two] s) :=
    h.inAnyOrder (fun act hact t ht => by
      simp only [List.mem_cons, List.not_mem_nil, or_false] at hact
      rcases hact with rfl | rfl | rfl
      · exact h.dispatchRestarted ht
      · exact h.evalFurnace .one ht
      · exact h.evalFurnace .two ht) hs
  have triggers (u : State) :
      (capTaken (condition (.lineTrip .two) true (condition (.lineTrip .one) true u))).ground = u.ground :=
    (ground_capTaken _).trans ((ground_condition _ _ _).trans (ground_condition _ _ u))
  exact h.ground (h.evalSinkAndRams .two (h.evalSinkAndRams .one jobs)) (triggers _)

theorem restartScrubbed (hs : P s) : P (restartScrubbed s) := by
  refine h.resetScrub (h.ground hs (ground_of_notices ?_))
  exact (lessNotices_setCause _ _ _ _).trans (lessNotices_setCause _ _ _ _)

theorem restartPosts (hs : P s) : P (restartPosts s) :=
  h.postBudget .two (h.postBudget .one (h.restartEvaluated (h.restartScrubbed hs)))

theorem softReset (hb : ∀ s, P s → P (softBase s)) (hs : P s) : P (softReset s) := by
  rw [softReset_eq]
  exact h.noticesSince _ (h.restartPosts (hb _ (h.settleAll hs)))

theorem restart (hb : ∀ s, P s → P (softBase s)) (hs : P s) :
    P (Machine.serve .restart (confirmed 0 restartBody) s) :=
  h.serve_confirmed (fun _ _ ht => Stable.answered .done (h.softReset hb ht)) _ _ hs

end Guarded

/-! ### Every command and every step -/

/-- What a property of the ground needs beside: the base states of the resets have it, and the four requests upon the limit
table keep it. -/
structure TableAndResets (P : State → Prop) : Prop where
  powerOn : ∀ straps s, P (powerOn straps s)
  line : ∀ straps s, P s → P (lineBase straps s)
  soft : ∀ s, P s → P (softBase s)
  setLimit : ∀ {s} index v, P s → P (setLimit index v s).2
  setOverride : ∀ {s} index v, P s → P (setOverride index v s).2
  clearOverride : ∀ {s} index, P s → P (clearOverride index s).2
  freeze : ∀ {s}, P s → P (freeze s).2

namespace Guarded
variable {P : State → Prop} (h : Guarded P) (k : TableAndResets P) {s t : State}
include h k

theorem exec_every {c : Instr} (hs : P s) (hx : Machine.exec c s = .next t) : P t := by
  have next {u : State} (hu : P u) (he : Machine.exec c s = .next u) : P t := by
    rw [he] at hx
    cases hx
    exact hu
  cases c with
  | powerOn straps => exact next (k.powerOn straps s) rfl
  | resetNAssert => exact next (h.assertReset hs) rfl
  | lineReset straps => exact next (h.lineReset k.line straps hs) rfl
  | restart => exact next (h.restart k.soft hs) rfl
  | setLimit => exact next (h.serve_sized (body := setLimitBody) (fun _ _ hu => k.setLimit _ _ hu) _ _ hs) rfl
  | setOverride => exact next (h.serve_sized (body := setOverrideBody) (fun _ _ hu => k.setOverride _ _ hu) _ _ hs) rfl
  | clearOverride =>
    exact next (h.serve_sized (body := clearOverrideBody) (fun _ _ hu => k.clearOverride _ hu) _ _ hs) rfl
  | freeze => exact next (h.serve_confirmed (body := freezeBody) (fun _ _ hu => k.freeze hu) _ _ hs) rfl
  | _ => exact h.exec rfl rfl hs hx

theorem step (hs : P s) (hx : Machine.step s = .next t) : P t := by
  unfold Machine.step at hx
  split at hx
  · rename_i c rest hp
    have taken : P { s with pending := rest } := h.ground hs rfl
    exact h.exec_every k taken hx
  · cases hx
    exact hs

end Guarded

end Sys2Proof.Machine
end

section
/-! SUPPORT. The limit table: indices and entries, and what a written entry leaves of the others (R63, R65, R66). -/

namespace Sys2Proof.Machine

/-! ### Indices -/

theorem LineLimit.offset_lt (k : LineLimit) : k.offset < 24 := by
  cases k with
  | hhLimit p => cases p <;> decide
  | dayLimit p => cases p <;> decide
  | _ => decide

theorem LineLimit.ofOffset_offset (k : LineLimit) : LineLimit.ofOffset k.offset = k := by
  cases k with
  | hhLimit p => cases p <;> rfl
  | dayLimit p => cases p <;> rfl
  | _ => rfl

theorem LimitId.index_lt (i : LimitId) : i.index < 52 := by
  cases i with
  | line l k =>
    have := k.offset_lt
    cases l <;> simp only [LimitId.index] <;> omega
  | plant k => cases k <;> decide

theorem LimitId.ofIndex?_index (i : LimitId) : LimitId.ofIndex? i.index = some i := by
  cases i with
  | line l k =>
    have hk := k.offset_lt
    cases l with
    | one =>
      exact (if_pos hk).trans (congrArg (fun k => some (LimitId.line .one k)) k.ofOffset_offset)
    | two =>
      have back : LineLimit.ofOffset (24 + k.offset - 24) = k := by rw [Nat.add_sub_cancel_left, k.ofOffset_offset]
      have above : ¬24 + k.offset < 24 := by omega
      have below : 24 + k.offset < 48 := by omega
      exact (if_neg above).trans ((if_pos below).trans (congrArg (fun k => some (LimitId.line .two k)) back))
  | plant k => cases k <;> rfl

theorem LimitId.index_injective : Function.Injective LimitId.index := fun i j h =>
  Option.some.inj ((ofIndex?_index i).symm.trans ((congrArg ofIndex? h).trans (ofIndex?_index j)))

theorem LimitId.ofIndex?_above {n : Nat} (h : 51 < n) : LimitId.ofIndex? n = none := by
  unfold LimitId.ofIndex?
  rw [if_neg (by omega), if_neg (by omega)]
  split
  iterate 4 · omega
  · rfl

/-! ### Entries -/

theorem limitEntry_withEntry {s : State} (h : s.limits.entries.length = 52) (i j : LimitId) (e : LimitEntry) :
    (s.withEntry i e).limitEntry j = if j = i then e else s.limitEntry j := by
  show (s.limits.entries.set i.index e).getD j.index _ = _
  rw [List.getD_eq_getElem?_getD, List.getElem?_set]
  by_cases hj : j = i
  · subst hj
    rw [if_pos rfl, if_pos (h ▸ j.index_lt), if_pos rfl]
    rfl
  · rw [if_neg fun he => hj (LimitId.index_injective he).symm, if_neg hj, ← List.getD_eq_getElem?_getD]
    rfl

theorem lineLimit_withEntry {s : State} (h : s.limits.entries.length = 52) (i : LimitId) (e : LimitEntry) (l : Line)
    (k : LineLimit) :
    (s.withEntry i e).lineLimit l k = if .line l k = i then e.effective else s.lineLimit l k :=
  (congrArg LimitEntry.effective (limitEntry_withEntry h i (.line l k) e)).trans (apply_ite LimitEntry.effective _ _ _)

/-! ### Overrides no looser than the commissioned value -/

/-- The table has its 52 entries, and no override is looser than the commissioned value beside it (R63). -/
def State.tightTable (s : State) : Prop := s.limits.entries.length = 52 ∧ ∀ i, (s.limitEntry i).tight i

theorem tightTable_withEntry {s : State} {i : LimitId} {e : LimitEntry} (h : s.tightTable) (he : e.tight i) :
    (s.withEntry i e).tightTable := by
  obtain ⟨sized, tight⟩ := h
  refine ⟨(List.length_set ..).trans sized, fun j => ?_⟩
  rw [limitEntry_withEntry sized]
  split
  · rename_i hj
    exact hj ▸ he
  · exact tight j

theorem LimitEntry.tight_none (i : LimitId) (v : Int) : LimitEntry.tight i ⟨v, none⟩ := fun _ h => nomatch h

/-- The entry that SET_LIMIT writes: an override that has become looser is removed (R65). -/
theorem LimitEntry.tight_filter (i : LimitId) (v : Int) (o : Option Int) :
    LimitEntry.tight i ⟨v, o.filter fun x => !i.looser x v⟩ := fun x hx => by
  simpa using (Option.filter_eq_some_iff.mp hx).2

theorem LimitEntry.tight_some {i : LimitId} {v w : Int} (h : i.looser v w = false) : LimitEntry.tight i ⟨w, some v⟩ :=
  fun _ hx => Option.some.inj hx ▸ h

/-- An entry whose lower value is the stricter one is effective at no more than its commissioned value. -/
theorem LimitEntry.effective_le {i : LimitId} {e : LimitEntry} (hi : i.tightensUp = false) (he : e.tight i) :
    e.effective ≤ e.commissioned := by
  unfold LimitEntry.effective
  cases ho : e.override with
  | none => exact le_rfl
  | some v => simpa [LimitId.looser, hi] using he v ho

/-- An entry whose higher value is the stricter one is effective at no less than its commissioned value. -/
theorem LimitEntry.le_effective {i : LimitId} {e : LimitEntry} (hi : i.tightensUp = true) (he : e.tight i) :
    e.commissioned ≤ e.effective := by
  unfold LimitEntry.effective
  cases ho : e.override with
  | none => exact le_rfl
  | some v => simpa [LimitId.looser, hi] using he v ho

/-! ### What the four requests can do -/

/-- SET_LIMIT changes nothing, or writes an entry in COMMISSION (R65). -/
theorem setLimit_outcomes (index : Nat) (v : Int) (s : State) : (setLimit index v s).2 = s ∨
    ∃ i : LimitId, s.limits.mode = .commission ∧ i.inRange v = true ∧
      (setLimit index v s).2 = writeLimit i ⟨v, (s.limitEntry i).override.filter fun o => !i.looser o v⟩ s := by
  unfold setLimit
  split
  · exact .inl rfl
  · rename_i i _
    split
    · exact .inl rfl
    · rename_i hm
      split
      · exact .inl rfl
      · rename_i hr
        refine .inr ⟨i, ?_, by simpa using hr, rfl⟩
        cases h : s.limits.mode with
        | commission => rfl
        | operate => exact absurd h hm

/-- SET_OVERRIDE changes nothing, or sets an override that is no looser and leaves the drum pair ordered (R66, R67). -/
theorem setOverride_outcomes (index : Nat) (v : Int) (s : State) : (setOverride index v s).2 = s ∨
    ∃ i : LimitId, i.looser v (s.limitEntry i).commissioned = false ∧
      (s.withEntry i { s.limitEntry i with override := some v }).pairOrdered i = true ∧
      (setOverride index v s).2 = writeLimit i { s.limitEntry i with override := some v } s := by
  unfold setOverride
  split
  · exact .inl rfl
  · rename_i i _
    dsimp only
    split_ifs with _ _ looser ordered
    · exact .inl rfl
    · exact .inl rfl
    · exact .inl rfl
    · exact .inl rfl
    · exact .inr ⟨i, by simpa using looser, by simpa using ordered, rfl⟩

/-- CLEAR_OVERRIDE changes nothing, or clears an override and leaves the drum pair ordered that a DRUM_LOW belongs to
(R68). -/
theorem clearOverride_outcomes (index : Nat) (s : State) : (clearOverride index s).2 = s ∨
    ∃ i : LimitId, (∀ l, i = .line l .drumLow →
        (s.withEntry i { s.limitEntry i with override := none }).drumOrdered l = true) ∧
      (clearOverride index s).2 = writeLimit i { s.limitEntry i with override := none } s := by
  unfold clearOverride
  split
  · exact .inl rfl
  · rename_i i _
    dsimp only
    split
    · exact .inl rfl
    · split
      · exact .inl rfl
      · split
        · rename_i l
          split
          · exact .inl rfl
          · rename_i ordered
            refine .inr ⟨_, fun m hm => ?_, rfl⟩
            cases hm
            simpa using ordered
        · rename_i other
          exact .inr ⟨i, fun l hl => absurd hl (other l), rfl⟩

/-- FREEZE changes nothing, or takes a sound table to OPERATE (R71). -/
theorem freeze_outcomes (s : State) : (freeze s).2 = s ∨
    s.freezable = true ∧
      (freeze s).2 = s.modLimits fun t => { t with checkCode := s.computedCode, scrubCount := 0, mode := .operate } := by
  unfold freeze
  split_ifs with _ hf
  · exact .inl rfl
  · exact .inl rfl
  · exact .inr ⟨by simpa using hf, rfl⟩

end Sys2Proof.Machine
end

section
/-! SUPPORT. What feed admission and trip operations do to bed charges, holds and trip causes. -/

namespace Sys2Proof.Machine

/-! ### Bed charges -/

theorem feedOf_originate (e : Nat) (v : Verb) (x : Int) (pr : Priority) (s : State) (l : Line) :
    (originate e v x pr s).feedOf l = s.feedOf l := congrArg (PerLine.get · l) (feed_originate e v x pr s)

theorem bed_modFeed (l m : Line) (s : State) {g : Feed → Feed} (hg : (g (s.feedOf l)).bed = (s.feedOf l).bed) :
    ((s.modFeed l g).feedOf m).bed = (s.feedOf m).bed := by
  rw [State.feedOf_modFeed]
  split
  · rename_i hm
    rw [hg, hm]
  · rfl

theorem bed_abortStroke (l m : Line) (s : State) : ((abortStroke l s).feedOf m).bed = (s.feedOf m).bed := by
  unfold abortStroke
  split
  · exact Eq.trans (bed_modFeed l m _ rfl) (congrArg Feed.bed (feedOf_originate _ _ _ _ s m))
  · rfl

theorem bed_addHold (l m : Line) (c : HoldCause) (s : State) : ((addHold l c s).feedOf m).bed = (s.feedOf m).bed := by
  unfold addHold
  split
  · rfl
  · exact Eq.trans (bed_abortStroke l m _) (bed_modFeed l m s rfl)

/-- The release of the head entry adds its charge alone (R101). -/
theorem bed_release {l : Line} {s : State} {head : Stroke} {rest : List Stroke}
    (hq : (s.feedOf l).queue = head :: rest) (m : Line) :
    ((release l s).feedOf m).bed ≤ (s.feedOf m).bed + if m = l then s.strokeCharge l head.length else 0 := by
  unfold release
  rw [hq]
  split
  · rename_i _ _ _ k he _
    cases he
    dsimp only
    refine (bed_modFeed l m _ rfl).trans_le ?_
    rw [feedOf_originate, State.feedOf_modFeed]
    split
    · rename_i hm
      rw [hm]
    · exact Nat.le_add_right _ _
  · exact Nat.le_add_right _ _

/-- A release check leaves a line's charge, or releases into an empty hold set up to the ceiling (R98, R100). -/
theorem bed_releaseCheck (l m : Line) (s : State) :
    ((releaseCheck l s).feedOf m).bed ≤ (s.feedOf m).bed ∨
      (s.feedOf m).holds.isEmpty = true ∧ ((releaseCheck l s).feedOf m).bed ≤ s.ceiling m := by
  cases hr : s.mayRelease l with
  | false =>
    rw [releaseCheck_of_not_mayRelease hr]
    exact .inl le_rfl
  | true =>
    rw [releaseCheck, if_pos hr]
    unfold State.mayRelease at hr
    split at hr
    · rename_i head rest _ hq
      have released := bed_release hq m
      simp only [Bool.and_eq_true, decide_eq_true_eq] at hr
      obtain ⟨⟨unheld, under⟩, -⟩ := hr
      by_cases hm : m = l
      · subst hm
        rw [if_pos rfl] at released
        exact .inr ⟨unheld, released.trans under⟩
      · rw [if_neg hm] at released
        exact .inl released
    · cases hr

/-! ### Trip causes -/

theorem TripSet.set_of_get {t : TripSet} {c : TripCause} (h : t.get c = true) : t.set c true = t := by
  obtain ⟨restart, integrity, drumLowLow, manual⟩ := t
  cases c <;> exact congrArg _ h.symm

theorem ground_recordTrip (l : Line) (c : TripCause) (s : State) : (recordTrip l c s).ground =
    { s.ground with causes := fun m => if m = l then (s.tripOf l).causes.set c true else (s.tripOf m).causes } := by
  cases h : (s.tripOf l).causes.get c with
  | false =>
    rw [recordTrip_of_absent h]
    exact (ground_of_notices (lessNotices_setCause _ _ _ _)).trans (ground_modTrip s l _)
  | true =>
    have : (fun m => if m = l then (s.tripOf l).causes.set c true else (s.tripOf m).causes) =
        fun m => (s.tripOf m).causes := by
      funext m
      split
      · rename_i hm
        rw [TripSet.set_of_get h, hm]
      · rfl
    rw [this, recordTrip, if_pos h]
    rfl

theorem causes_recordTrip (l m : Line) (c : TripCause) (s : State) : ((recordTrip l c s).tripOf m).causes =
    if m = l then (s.tripOf l).causes.set c true else (s.tripOf m).causes :=
  congrFun (congrArg Ground.causes (ground_recordTrip l c s)) m

theorem feedOf_recordTrip (l m : Line) (c : TripCause) (s : State) : (recordTrip l c s).feedOf m = s.feedOf m :=
  congrFun (congrArg Ground.feed (ground_recordTrip l c s)) m

theorem TripSet.restart_set {t : TripSet} (c : TripCause) (h : t.restart = true) : (t.set c true).restart = true := by
  cases c with
  | restart => rfl
  | _ => exact h

/-! ### What holds and charges do not touch -/

theorem limits_of_lessFeed {s t : State} (h : t.lessFeed = s.lessFeed) : t.limits = s.limits :=
  read_of_erased State.lessFeed (fun _ => rfl) h

theorem tripOf_of_lessFeed {s t : State} (h : t.lessFeed = s.lessFeed) (l : Line) : t.tripOf l = s.tripOf l :=
  read_of_erased State.lessFeed (read := fun s => s.tripOf l) (fun _ => rfl) h

end Sys2Proof.Machine
end

section
/-! SUPPORT. No bed charge above the commissioned BED_CEILING (R98): what keeps the table, the causes and the charges so
that a release stays below it. -/

namespace Sys2Proof.Machine

/-- What bounds the charges, beside that a trip holds the feed. -/
def State.chargesSafe (s : State) : Prop :=
  s.limitsSound ∧ s.commissionSafe ∧ ∀ l, ((s.feedOf l).bed : Int) ≤ (s.limitEntry (.line l .bedCeiling)).commissioned

theorem bedsUnderCeiling_iff {s : State} : s.bedsUnderCeiling ↔ s.chargesSafe ∧ s.tripsHoldFeed :=
  ⟨fun ⟨sound, held, safe, beds⟩ => ⟨⟨sound, safe, beds⟩, held⟩,
    fun ⟨⟨sound, safe, beds⟩, held⟩ => ⟨sound, held, safe, beds⟩⟩

theorem mode_cases (m : Mode) : m = .commission ∨ m = .operate := by
  cases m
  · exact .inl rfl
  · exact .inr rfl

/-- The limit table's entries and mode stay, RESTART stays where it stood, and no charge rises but in OPERATE up to the
commissioned BED_CEILING. -/
theorem State.chargesSafe.mono {s t : State} (h : s.chargesSafe) (entries : t.limits.entries = s.limits.entries)
    (mode : t.limits.mode = s.limits.mode)
    (restart : ∀ l, s.limits.mode = .commission → (s.tripOf l).causes.restart = true → (t.tripOf l).causes.restart = true)
    (bed : ∀ l, (t.feedOf l).bed ≤ (s.feedOf l).bed ∨ s.limits.mode = .operate ∧
      ((t.feedOf l).bed : Int) ≤ (s.limitEntry (.line l .bedCeiling)).commissioned) : t.chargesSafe := by
  obtain ⟨⟨sized, tight, floor⟩, safe, beds⟩ := h
  have same (i : LimitId) : t.limitEntry i = s.limitEntry i := congrArg (fun e => e.getD i.index ⟨0, none⟩) entries
  refine ⟨⟨entries ▸ sized, fun i => same i ▸ tight i, fun l => same _ ▸ floor l⟩, fun hm l => ?_, fun l => ?_⟩
  · rw [mode] at hm
    obtain ⟨hr, hb⟩ := safe hm l
    refine ⟨restart l hm hr, ?_⟩
    rcases bed l with le | ⟨ho, -⟩
    · omega
    · rw [hm] at ho
      cases ho
  · rw [same]
    rcases bed l with le | ⟨-, under⟩
    · have := beds l
      omega
    · exact under

/-- A charge within the ceiling is within the commissioned BED_CEILING (R63, R98). -/
theorem State.chargesSafe.ceiling_le {s : State} (h : s.chargesSafe) (l : Line) :
    (s.ceiling l : Int) ≤ (s.limitEntry (.line l .bedCeiling)).commissioned := by
  obtain ⟨⟨-, tight, floor⟩, -, -⟩ := h
  have floored := floor l
  have effective : s.lineLimit l .bedCeiling ≤ (s.limitEntry (.line l .bedCeiling)).commissioned :=
    LimitEntry.effective_le rfl (tight (.line l .bedCeiling))
  unfold State.ceiling
  split <;> omega

theorem causes_of_ground {s t : State} (hg : t.ground = s.ground) (l : Line) : (t.tripOf l).causes = (s.tripOf l).causes :=
  congrFun (congrArg Ground.causes hg) l

theorem feedOf_of_ground {s t : State} (hg : t.ground = s.ground) (l : Line) : t.feedOf l = s.feedOf l :=
  congrFun (congrArg Ground.feed hg) l

theorem State.chargesSafe.of_ground {s t : State} (h : s.chargesSafe) (hg : t.ground = s.ground) : t.chargesSafe :=
  h.mono (congrArg Ground.entries hg) (congrArg Ground.mode hg)
    (fun l _ hr => (causes_of_ground hg l).symm ▸ hr)
    fun l => .inl (congrArg Feed.bed (feedOf_of_ground hg l)).le

theorem State.tripsHoldFeed.mono {s t : State} (h : s.tripsHoldFeed)
    (causes : ∀ l, (t.tripOf l).causes.isEmpty = false → (s.tripOf l).causes.isEmpty = false)
    (tripped : ∀ l, (t.tripOf l).causes.isEmpty = false → s.Held l .tripped → t.Held l .tripped) : t.tripsHoldFeed :=
  fun l hl => tripped l hl (h l (causes l hl))

theorem State.tripsHoldFeed.of_ground {s t : State} (h : s.tripsHoldFeed) (hg : t.ground = s.ground) : t.tripsHoldFeed :=
  h.mono (fun l hl => causes_of_ground hg l ▸ hl) fun l _ hk => by
    unfold State.Held at hk ⊢
    rwa [feedOf_of_ground hg l]

namespace State.bedsUnderCeiling
variable {s : State} (h : s.bedsUnderCeiling)
include h

theorem of_ground {t : State} (hg : t.ground = s.ground) : t.bedsUnderCeiling := by
  obtain ⟨charges, held⟩ := bedsUnderCeiling_iff.mp h
  exact bedsUnderCeiling_iff.mpr ⟨charges.of_ground hg, held.of_ground hg⟩

/-- Limit table and trip units stay, no charge rises, and TRIPPED stays where a trip asks for it. -/
theorem mono {t : State} (limits : t.limits = s.limits) (trip : ∀ l, t.tripOf l = s.tripOf l)
    (bed : ∀ l, (t.feedOf l).bed ≤ (s.feedOf l).bed)
    (tripped : ∀ l, (s.tripOf l).causes.isEmpty = false → s.Held l .tripped → t.Held l .tripped) : t.bedsUnderCeiling := by
  obtain ⟨charges, held⟩ := bedsUnderCeiling_iff.mp h
  refine bedsUnderCeiling_iff.mpr ⟨charges.mono (congrArg LimitTable.entries limits) (congrArg LimitTable.mode limits)
    (fun l _ hr => (trip l).symm ▸ hr) fun l => .inl (bed l), held.mono (fun l hl => trip l ▸ hl) fun l hl => tripped l ?_⟩
  rwa [trip] at hl

theorem eased {l : Line} {g : Feed → Feed} (he : (s.feedOf l).Eased (g (s.feedOf l))) :
    (s.modFeed l g).bedsUnderCeiling := by
  have feed (m : Line) : ((s.modFeed l g).feedOf m).bed ≤ (s.feedOf m).bed ∧
      ((s.modFeed l g).feedOf m).holds = (s.feedOf m).holds := by
    rw [State.feedOf_modFeed]
    split
    · rename_i hm
      rw [hm]
      exact ⟨he.bed, he.holds⟩
    · exact ⟨le_rfl, rfl⟩
  refine h.mono rfl (fun _ => rfl) (fun m => (feed m).1) fun m _ hk => ?_
  unfold State.Held at hk ⊢
  rwa [(feed m).2]

/-- No release in COMMISSION, where RESTART holds the feed; in OPERATE none beyond the effective ceiling (R76, R98). -/
theorem releaseCheck (l : Line) : (Machine.releaseCheck l s).bedsUnderCeiling := by
  obtain ⟨charges, held⟩ := bedsUnderCeiling_iff.mp h
  have limits := limits_of_lessFeed (lessFeed_releaseCheck l s)
  have trip := tripOf_of_lessFeed (lessFeed_releaseCheck l s)
  have operates (m : Line) (hm : (s.feedOf m).holds.isEmpty = true) : s.limits.mode = .operate := by
    rcases mode_cases s.limits.mode with hc | ho
    · obtain ⟨-, safe, -⟩ := charges
      have tripped : (s.feedOf m).holds.tripped = true := held m (by simp [TripSet.isEmpty, (safe hc m).1])
      simp [HoldSet.isEmpty, tripped] at hm
    · exact ho
  refine bedsUnderCeiling_iff.mpr ⟨charges.mono (congrArg LimitTable.entries limits) (congrArg LimitTable.mode limits)
    (fun m _ hr => (trip m).symm ▸ hr) fun m => ?_, held.mono (fun m hm => trip m ▸ hm) fun m _ hk => ?_⟩
  · rcases bed_releaseCheck l m s with le | ⟨empty, under⟩
    · exact .inl le
    · exact .inr ⟨operates m empty, (Int.ofNat_le.mpr under).trans (charges.ceiling_le m)⟩
  · unfold State.Held at hk ⊢
    rwa [holds_releaseCheck]

theorem addHold (l : Line) (c : HoldCause) : (Machine.addHold l c s).bedsUnderCeiling :=
  h.mono (limits_of_lessFeed (lessFeed_addHold l c s)) (tripOf_of_lessFeed (lessFeed_addHold l c s))
    (fun m => (bed_addHold l m c s).le) fun m _ => (held_addHold l c s).2 m _

/-- A cause other than TRIPPED is removed, or TRIPPED once no trip cause is left. -/
theorem removeHold (l : Line) (c : HoldCause) (hc : c = .tripped → (s.tripOf l).causes.isEmpty = true) :
    (Machine.removeHold l c s).bedsUnderCeiling := by
  have removed : (s.modFeed l fun f => { f with holds := f.holds.set c false }).bedsUnderCeiling := by
    refine h.mono rfl (fun _ => rfl) (fun m => le_of_eq (bed_modFeed l m s rfl)) fun m hm hk => ?_
    unfold State.Held at hk ⊢
    rw [held_modFeed_set]
    split
    · rename_i hcl
      obtain ⟨rfl, rfl⟩ := hcl
      rw [hc rfl] at hm
      cases hm
    · exact hk
  exact keeps_ite (removed.releaseCheck l) h

end State.bedsUnderCeiling

end Sys2Proof.Machine
end

section
/-! SUPPORT. The posts of trips upon holds and charges, and every operation under the bound on the bed charges. -/

namespace Sys2Proof.Machine

/-! ### The posts of trips -/

/-- What the posts of trips leave: limit table, trip causes, every cause held; and no charge rises. -/
structure Posted (s t : State) : Prop where
  entries : t.limits.entries = s.limits.entries
  mode : t.limits.mode = s.limits.mode
  causes : ∀ l, (t.tripOf l).causes = (s.tripOf l).causes
  bed : ∀ l, (t.feedOf l).bed ≤ (s.feedOf l).bed
  held : HoldsKept s t

theorem Posted.trans {s t u : State} (h : Posted s t) (h' : Posted t u) : Posted s u where
  entries := h'.entries.trans h.entries
  mode := h'.mode.trans h.mode
  causes l := (h'.causes l).trans (h.causes l)
  bed l := (h'.bed l).trans (h.bed l)
  held := h.held.trans h'.held

theorem posted_of_ground {s t : State} (hg : t.ground = s.ground) : Posted s t where
  entries := congrArg Ground.entries hg
  mode := congrArg Ground.mode hg
  causes := causes_of_ground hg
  bed l := (congrArg Feed.bed (feedOf_of_ground hg l)).le
  held l k hk := by
    unfold State.Held at hk ⊢
    rwa [feedOf_of_ground hg l]

theorem posted_addHold (l : Line) (c : HoldCause) (s : State) : Posted s (addHold l c s) where
  entries := congrArg LimitTable.entries (limits_of_lessFeed (lessFeed_addHold l c s))
  mode := congrArg LimitTable.mode (limits_of_lessFeed (lessFeed_addHold l c s))
  causes m := congrArg TripUnit.causes (tripOf_of_lessFeed (lessFeed_addHold l c s) m)
  bed m := (bed_addHold l m c s).le
  held := (held_addHold l c s).2

theorem ground_tripCondition (l : Line) (now : Bool) (s : State) :
    (capTaken (condition (.lineTrip l) now s)).ground = s.ground :=
  (ground_capTaken _).trans (ground_condition _ _ s)

theorem posted_post {l : Line} {act : State → State} (h : act ∈ tripPosts l true) (s : State) : Posted s (act s) := by
  unfold tripPosts at h
  simp only [List.mem_cons, List.not_mem_nil, or_false] at h
  rcases h with rfl | rfl
  · exact posted_addHold l .tripped s
  · exact posted_of_ground (ground_tripCondition l true s)

theorem mem_tripPosts (l : Line) : addHold l .tripped ∈ tripPosts l true := List.mem_cons_self

section posts
variable {acts : List (State → State)} (h : ∀ act ∈ acts, ∃ l, act ∈ tripPosts l true) (s : State)
include h

theorem posted_posts : Posted s (inAnyOrder acts s) :=
  inAnyOrder_invariant (Posted s) (fun t n ht => ht.trans (posted_of_ground (ground_choose t n))) acts
    (fun act hact t ht => by
      obtain ⟨l, hl⟩ := h act hact
      exact ht.trans (posted_post hl t)) s (posted_of_ground rfl)

/-- A line whose post is among them is held TRIPPED, in any order. -/
theorem held_posts {l : Line} (hl : addHold l .tripped ∈ acts) : (inAnyOrder acts s).Held l .tripped :=
  inAnyOrder_establishes (I := fun _ => True) (D := fun t => t.Held l .tripped) (fun _ _ _ => trivial)
    (fun _ n _ ht => held_choose n ht) (fun _ _ _ _ => trivial)
    (fun act hact t _ ht => by
      obtain ⟨m, hm⟩ := h act hact
      exact (posted_post hm t).held l _ ht) hl (fun t _ => (held_addHold l .tripped t).1) trivial

end posts

theorem State.chargesSafe.posted {s t : State} (h : s.chargesSafe) (hp : Posted s t) : t.chargesSafe :=
  h.mono hp.entries hp.mode (fun l _ hr => (hp.causes l).symm ▸ hr) fun l => .inl (hp.bed l)

/-- Trips recorded and posted: each line with a cause was held before, or its post is among them. -/
theorem bedsUnderCeiling_posts {acts : List (State → State)} (h : ∀ act ∈ acts, ∃ l, act ∈ tripPosts l true) {s : State}
    (hs : s.chargesSafe) (ht : ∀ l, (s.tripOf l).causes.isEmpty = false → s.Held l .tripped ∨ addHold l .tripped ∈ acts) :
    (inAnyOrder acts s).bedsUnderCeiling := by
  have posted := posted_posts h s
  refine bedsUnderCeiling_iff.mpr ⟨hs.posted posted, fun l hl => ?_⟩
  rw [posted.causes] at hl
  rcases ht l hl with held | owed
  · exact posted.held l _ held
  · exact held_posts h s owed

/-! ### The scrub -/

/-- What a scrub records of a mismatch before the trip units act on it (R74). -/
def faultRecorded (s : State) : State :=
  setCause .limitFault none 0 (recordTrip .two .integrity (recordTrip .one .integrity s))

/-- The posts that a scrub's additions owe. -/
def State.scrubPosts (s : State) : List (State → State) := s.postsIfEmpty .one ++ s.postsIfEmpty .two

theorem scrub_of_agreement {s : State} (h : s.computedCode = s.limits.checkCode) : scrub s = s := if_pos h

theorem scrub_of_mismatch {s : State} (h : s.computedCode ≠ s.limits.checkCode) :
    scrub s = inAnyOrder s.scrubPosts (faultRecorded s) := if_neg h

theorem ground_faultRecorded (s : State) : (faultRecorded s).ground =
    { s.ground with causes := fun l => (s.tripOf l).causes.set .integrity true } := by
  have causes (l : Line) :
      (if l = .two then ((recordTrip .one .integrity s).tripOf .two).causes.set .integrity true
        else ((recordTrip .one .integrity s).tripOf l).causes) = (s.tripOf l).causes.set .integrity true := by
    rw [causes_recordTrip, causes_recordTrip]
    cases l <;> rfl
  have noted := ground_of_notices
    (lessNotices_setCause .limitFault none 0 (recordTrip .two .integrity (recordTrip .one .integrity s)))
  rw [faultRecorded, noted, ground_recordTrip, ground_recordTrip]
  exact congrArg (fun c => { s.ground with causes := c }) (funext causes)

theorem scrubPosts_trip {s : State} {act : State → State} (h : act ∈ s.scrubPosts) : ∃ l, act ∈ tripPosts l true := by
  have owed (l : Line) (ha : act ∈ s.postsIfEmpty l) : ∃ l, act ∈ tripPosts l true := by
    unfold State.postsIfEmpty at ha
    split at ha
    · exact ⟨l, ha⟩
    · cases ha
  exact (List.mem_append.mp h).elim (owed .one) (owed .two)

/-- A line whose set was empty has TRIPPED posted. -/
theorem mem_scrubPosts {s : State} {l : Line} (h : (s.tripOf l).causes.isEmpty = true) :
    addHold l .tripped ∈ s.scrubPosts := by
  have posts : addHold l .tripped ∈ s.postsIfEmpty l := by
    unfold State.postsIfEmpty
    rw [if_pos h]
    exact mem_tripPosts l
  cases l with
  | one => exact List.mem_append_left _ posts
  | two => exact List.mem_append_right _ posts

/-! ### Trip causes recorded and removed -/

/-- A write of trip causes that leaves RESTART in COMMISSION. -/
theorem State.chargesSafe.caused {s t : State} (h : s.chargesSafe) {causes : Line → TripSet}
    (hg : t.ground = { s.ground with causes := causes })
    (restart : ∀ l, s.limits.mode = .commission → (s.tripOf l).causes.restart = true → (causes l).restart = true) :
    t.chargesSafe := by
  have caused (l : Line) : (t.tripOf l).causes = causes l := congrFun (congrArg Ground.causes hg) l
  have fed (l : Line) : t.feedOf l = s.feedOf l := congrFun (congrArg Ground.feed hg) l
  exact h.mono (congrArg Ground.entries hg) (congrArg Ground.mode hg)
    (fun l hm hr => (caused l).symm ▸ restart l hm hr) fun l => .inl (congrArg Feed.bed (fed l)).le

theorem restart_recordTrip {l m : Line} (c : TripCause) {s : State} (h : (s.tripOf m).causes.restart = true) :
    (if m = l then (s.tripOf l).causes.set c true else (s.tripOf m).causes).restart = true := by
  split
  · rename_i hm
    exact TripSet.restart_set c (hm ▸ h)
  · exact h

namespace State.bedsUnderCeiling
variable {s : State} (h : s.bedsUnderCeiling)
include h

theorem addTripCause (l : Line) (c : TripCause) : (Machine.addTripCause l c s).bedsUnderCeiling := by
  obtain ⟨charges, held⟩ := bedsUnderCeiling_iff.mp h
  have recorded : (recordTrip l c s).chargesSafe :=
    charges.caused (ground_recordTrip l c s) fun m _ hr => restart_recordTrip c hr
  have kept (m : Line) (hm : m ≠ l) (hc : ((recordTrip l c s).tripOf m).causes.isEmpty = false) :
      (recordTrip l c s).Held m .tripped := by
    rw [causes_recordTrip, if_neg hm] at hc
    unfold State.Held
    rw [feedOf_recordTrip]
    exact held m hc
  unfold Machine.addTripCause
  split
  · refine bedsUnderCeiling_posts (fun act ha => ⟨l, ha⟩) recorded fun m hm => ?_
    by_cases hml : m = l
    · exact .inr (hml ▸ mem_tripPosts m)
    · exact .inl (kept m hml hm)
  · rename_i wasTripped
    refine bedsUnderCeiling_iff.mpr ⟨recorded, fun m hm => ?_⟩
    by_cases hml : m = l
    · rw [feedOf_recordTrip, hml]
      exact held l (Bool.eq_false_iff.mpr wasTripped)
    · exact kept m hml hm

/-- The scrub's mismatch: INTEGRITY in both sets, TRIPPED at each line that was not tripped (R74). -/
theorem scrub : (Machine.scrub s).bedsUnderCeiling := by
  obtain ⟨charges, held⟩ := bedsUnderCeiling_iff.mp h
  by_cases agrees : s.computedCode = s.limits.checkCode
  · rwa [scrub_of_agreement agrees]
  · have recorded := ground_faultRecorded s
    rw [scrub_of_mismatch agrees]
    refine bedsUnderCeiling_posts (fun _ => scrubPosts_trip)
      (charges.caused recorded fun l _ hr => TripSet.restart_set .integrity hr) fun l _ => ?_
    cases hl : (s.tripOf l).causes.isEmpty with
    | true => exact .inr (mem_scrubPosts hl)
    | false =>
      have feed : (faultRecorded s).feedOf l = s.feedOf l := congrFun (congrArg Ground.feed recorded) l
      refine .inl ?_
      unfold Held
      rw [feed]
      exact held l hl

theorem tripReset (l : Line) : (Machine.tripReset l s).bedsUnderCeiling := by
  obtain ⟨charges, held⟩ := bedsUnderCeiling_iff.mp h
  have written := ground_modTrip s l fun t => { t with causes := s.tripRemaining l }
  have causes (m : Line) : ((s.modTrip l fun t => { t with causes := s.tripRemaining l }).tripOf m).causes =
      if m = l then s.tripRemaining l else (s.tripOf m).causes := congrFun (congrArg Ground.causes written) m
  have removed : (s.modTrip l fun t => { t with causes := s.tripRemaining l }).bedsUnderCeiling := by
    refine bedsUnderCeiling_iff.mpr ⟨charges.caused written fun m hm hr => ?_, held.mono (fun m hm => ?_) fun _ _ hk => hk⟩
    · split
      · rename_i hml
        simp [tripRemaining, ← hml, hr, hm]
      · exact hr
    · rw [causes m] at hm
      split at hm
      · rename_i hml
        rw [hml]
        simp only [tripRemaining, TripSet.isEmpty, Bool.not_eq_false', Bool.or_eq_true, Bool.and_eq_true] at hm ⊢
        tauto
      · exact hm
  unfold Machine.tripReset
  dsimp only
  split
  · rename_i emptied
    have empty : ((s.modTrip l fun t => { t with causes := s.tripRemaining l }).tripOf l).causes.isEmpty = true := by
      rw [State.tripOf_modTrip, if_pos rfl]
      simp only [Bool.and_eq_true] at emptied
      exact emptied.2
    refine (inAnyOrder_invariant (fun t => t.bedsUnderCeiling ∧ (t.tripOf l).causes.isEmpty = true)
      (fun t n ⟨ht, he⟩ => ⟨ht.of_ground (ground_choose t n), causes_of_ground (ground_choose t n) l ▸ he⟩) _
      (fun act hact t ⟨ht, he⟩ => ?_) _ ⟨removed, empty⟩).1
    unfold tripPosts at hact
    simp only [List.mem_cons, List.not_mem_nil, or_false] at hact
    rcases hact with rfl | rfl
    · exact ⟨ht.removeHold l .tripped fun _ => he,
        (congrArg TripUnit.causes (tripOf_of_lessFeed (lessFeed_removeHold l .tripped t) l)).symm ▸ he⟩
    · exact ⟨ht.of_ground (ground_tripCondition l false t), causes_of_ground (ground_tripCondition l false t) l ▸ he⟩
  · exact removed

/-! ### Sink state and emission -/

theorem sinkChange (l : Line) : (Machine.sinkChange l s).bedsUnderCeiling :=
  keeps_ite (h.addHold l .noSink) ((h.removeHold l .noSink fun he => nomatch he).releaseCheck l)

theorem deriveSink : (Machine.deriveSink s).bedsUnderCeiling := by
  have noted : (s.modDispatch fun d => { d with sink := s.sinkFromStatus }).bedsUnderCeiling :=
    h.mono rfl (fun _ => rfl) (fun _ => le_rfl) fun _ _ hk => hk
  refine keeps_ite h (inAnyOrder_invariant State.bedsUnderCeiling (fun t n ht => ht.of_ground (ground_choose t n)) _
    (fun act hact t ht => ?_) _ noted)
  simp only [List.mem_cons, List.not_mem_nil, or_false] at hact
  rcases hact with rfl | rfl
  · exact ht.sinkChange .one
  · exact ht.sinkChange .two

theorem reasons (l : Line) (g : ReasonSet → ReasonSet) :
    (s.modFeed l fun f => { f with reasons := g f.reasons }).bedsUnderCeiling := by
  refine h.mono rfl (fun _ => rfl) (fun m => (bed_modFeed l m s rfl).le) fun m _ hk => ?_
  unfold State.Held at hk ⊢
  rw [State.feedOf_modFeed]
  split
  · rename_i hm
    exact hm ▸ hk
  · exact hk

theorem postReason (l : Line) (r : EmissionReason) : (Machine.postReason l r s).bedsUnderCeiling := by
  have added := h.reasons l fun x => x.add r
  exact keeps_ite ((added.addHold l .emission).of_ground (ground_of_notices (lessNotices_setCause _ _ _ _))) added

theorem clearEmission (l : Line) : (Machine.clearEmission l s).after.bedsUnderCeiling := by
  unfold Machine.clearEmission
  split
  · exact h
  · split
    · exact h
    · exact (h.reasons l fun _ => ReasonSet.empty).removeHold l .emission fun he => nomatch he

theorem minutes (l : Line) (g : Averager → Averager) : (s.modAverager l g).bedsUnderCeiling :=
  h.mono rfl (fun _ => rfl) (fun _ => le_rfl) fun _ _ hk => hk

theorem halfHourCloses (l : Line) (b : Nat) : (Machine.halfHourCloses l b s).bedsUnderCeiling := by
  have closed : (inTurn Pollutant.all (halfHourClose l b) s).bedsUnderCeiling :=
    inTurn_holds (fun p t ht => ht.of_ground (ground_halfHourClose l b p t)) h
  have counted := closed.minutes l fun a => { a with minutes := Nat.min 65535 (a.minutes + 30) }
  unfold Machine.halfHourCloses
  dsimp only
  refine keeps_ite closed ?_
  have capped (c : Prop) [Decidable c] := keeps_ite (c := c) (counted.postReason l .episodeCap) counted
  exact keeps_ite ((capped _).postReason l .budget) (capped _)

end State.bedsUnderCeiling

theorem guarded_bedsUnderCeiling : Guarded State.bedsUnderCeiling where
  ground h hg := h.of_ground hg
  eased he h := h.eased he
  releaseCheck l h := h.releaseCheck l
  addHold l c _ h := h.addHold l c
  removeHold l _ hc h := h.removeHold l _ fun he => by
    subst he
    exact absurd hc (by decide)
  deriveSink h := h.deriveSink
  postReason l r h := h.postReason l r
  clearEmission l h := h.clearEmission l
  halfHourCloses l b h := h.halfHourCloses l b
  newYear l h := h.minutes l _
  addTripCause l c h := h.addTripCause l c
  tripReset l h := h.tripReset l
  scrub h := h.scrub

end Sys2Proof.Machine
end

section
/-! SUPPORT. The bound on the bed charges at every step (R98). -/

namespace Sys2Proof.Machine

/-! ### The resets -/

theorem limitEntry_reset (i : LimitId) : State.reset.limitEntry i = ⟨0, none⟩ := by
  show (List.replicate 52 (⟨0, none⟩ : LimitEntry)).getD i.index ⟨0, none⟩ = _
  rw [List.getD_eq_getElem?_getD, List.getElem?_replicate]
  split <;> rfl

theorem tightTable_reset : State.reset.tightTable :=
  ⟨rfl, fun i => limitEntry_reset i ▸ LimitEntry.tight_none i 0⟩

theorem bedsUnderCeiling_reset : State.reset.bedsUnderCeiling := by
  obtain ⟨sized, tight⟩ := tightTable_reset
  refine ⟨⟨sized, tight, fun l => by rw [limitEntry_reset]⟩, fun l _ => ?_, fun _ l => ?_, fun l => ?_⟩
  · cases l <;> rfl
  · cases l <;> exact ⟨rfl, rfl⟩
  · rw [limitEntry_reset]
    cases l <;> exact le_rfl

/-- A reset keeps the limit table's entries and mode; every trip holds RESTART, TRIPPED is held, and no charge rises. -/
theorem State.bedsUnderCeiling.afterReset {s t : State} (h : s.bedsUnderCeiling)
    (entries : t.limits.entries = s.limits.entries) (mode : t.limits.mode = s.limits.mode)
    (restart : ∀ l, (t.tripOf l).causes.restart = true) (bed : ∀ l, (t.feedOf l).bed ≤ (s.feedOf l).bed)
    (tripped : ∀ l, (t.feedOf l).holds.tripped = true) : t.bedsUnderCeiling := by
  obtain ⟨charges, -⟩ := bedsUnderCeiling_iff.mp h
  exact bedsUnderCeiling_iff.mpr
    ⟨charges.mono entries mode (fun l _ _ => restart l) fun l => .inl (bed l), fun l _ => tripped l⟩

theorem bedsUnderCeiling_lineBase (straps : BitVec 8) (s : State) (h : s.bedsUnderCeiling) :
    (lineBase straps s).bedsUnderCeiling := by
  refine h.afterReset rfl rfl (fun l => ?_) (fun l => ?_) fun l => ?_
  · cases l <;> rfl
  · cases l <;> exact Nat.zero_le _
  · cases l <;> rfl

theorem bedsUnderCeiling_softBase (s : State) (h : s.bedsUnderCeiling) : (softBase s).bedsUnderCeiling := by
  refine h.afterReset rfl rfl (fun l => ?_) (fun l => ?_) fun l => ?_
  · cases l <;> rfl
  · cases l <;> exact le_rfl
  · cases l <;> rfl

/-! ### The requests that write the limit table -/

namespace State.bedsUnderCeiling
variable {s : State} (h : s.bedsUnderCeiling)
include h

theorem tightTable : s.tightTable := by
  obtain ⟨⟨sized, tight, -⟩, -⟩ := h
  exact ⟨sized, tight⟩

/-- An entry written: BED_CEILING gets another commissioned value in COMMISSION alone, where no waste lies on a grate. -/
theorem withEntry {i : LimitId} {e : LimitEntry} (tight : e.tight i)
    (ceiling : e.commissioned = (s.limitEntry i).commissioned ∨
      s.limits.mode = .commission ∧ ∀ l, i = .line l .bedCeiling → 0 ≤ e.commissioned) :
    (s.withEntry i e).bedsUnderCeiling := by
  obtain ⟨sized', tight'⟩ := tightTable_withEntry h.tightTable tight
  obtain ⟨⟨sized, -, floor⟩, held, safe, beds⟩ := h
  have written (l : Line) : 0 ≤ ((s.withEntry i e).limitEntry (.line l .bedCeiling)).commissioned ∧
      ((s.feedOf l).bed : Int) ≤ ((s.withEntry i e).limitEntry (.line l .bedCeiling)).commissioned := by
    rw [limitEntry_withEntry sized]
    split
    · rename_i hi
      rcases ceiling with same | ⟨hm, positive⟩
      · rw [same, ← hi]
        exact ⟨floor l, beds l⟩
      · rw [(safe hm l).2]
        exact ⟨positive l hi.symm, positive l hi.symm⟩
    · exact ⟨floor l, beds l⟩
  exact ⟨⟨sized', tight', fun l => (written l).1⟩, held, safe, fun l => (written l).2⟩

theorem setLimit (index : Nat) (v : Int) : (Machine.setLimit index v s).2.bedsUnderCeiling := by
  rcases setLimit_outcomes index v s with he | ⟨i, hm, hr, he⟩ <;> rw [he]
  · exact h
  · refine guarded_bedsUnderCeiling.writeLimit
      (h.withEntry (LimitEntry.tight_filter i v _) (.inr ⟨hm, fun l hi => ?_⟩))
    subst hi
    simp only [LimitId.inRange, LimitId.range, Bool.and_eq_true] at hr
    exact of_decide_eq_true hr.1

theorem setOverride (index : Nat) (v : Int) : (Machine.setOverride index v s).2.bedsUnderCeiling := by
  rcases setOverride_outcomes index v s with he | ⟨i, hv, -, he⟩ <;> rw [he]
  · exact h
  · exact guarded_bedsUnderCeiling.writeLimit (h.withEntry (LimitEntry.tight_some hv) (.inl rfl))

theorem clearOverride (index : Nat) : (Machine.clearOverride index s).2.bedsUnderCeiling := by
  rcases clearOverride_outcomes index s with he | ⟨i, -, he⟩ <;> rw [he]
  · exact h
  · exact guarded_bedsUnderCeiling.writeLimit (h.withEntry (LimitEntry.tight_none i _) (.inl rfl))

theorem freeze : (Machine.freeze s).2.bedsUnderCeiling := by
  rcases freeze_outcomes s with he | ⟨-, he⟩ <;> rw [he]
  · exact h
  · obtain ⟨sound, held, -, beds⟩ := h
    exact ⟨sound, held, fun hm => (by cases hm), beds⟩

end State.bedsUnderCeiling

/-! ### Every step -/

theorem tableAndResets_bedsUnderCeiling : TableAndResets State.bedsUnderCeiling where
  powerOn _ _ := bedsUnderCeiling_reset.of_ground rfl
  line := bedsUnderCeiling_lineBase
  soft := bedsUnderCeiling_softBase
  setLimit index v h := h.setLimit index v
  setOverride index v h := h.setOverride index v
  clearOverride index h := h.clearOverride index
  freeze h := h.freeze

/-- Settles O57: a trip or RESTART holds the feed wherever a release could pass the ceiling, and in COMMISSION, where alone
the commissioned BED_CEILING is written, no waste lies on a grate. -/
theorem bedsUnderCeilingAlways : Obligations.BedsUnderCeilingAlways := fun _ _ h hx =>
  guarded_bedsUnderCeiling.step tableAndResets_bedsUnderCeiling h hx

end Sys2Proof.Machine
end

section
/-! SUPPORT. The drum pairs in OPERATE (R67). -/

namespace Sys2Proof.Machine

/-! ### Entries and mode under every operation -/

/-- What the drum pairs turn on. -/
def State.table (s : State) : List LimitEntry × Mode := (s.limits.entries, s.limits.mode)

theorem stable_table (k : List LimitEntry × Mode) : Stable fun s => s.table = k :=
  stable_settings (fun x => (x.entries, x.mode)) k

/-- A property of the limit table's entries and mode: no operation of the blocks writes them. -/
theorem guarded_table {P : State → Prop} (h : ∀ {s t : State}, t.table = s.table → P s → P t) : Guarded P where
  ground hs hg := h (congrArg (fun g => (g.entries, g.mode)) hg) hs
  eased {s _ _} _ hs := h (s := s) rfl hs
  releaseCheck l hs := h ((stable_table _).calm.releaseCheck l rfl) hs
  addHold l c _ hs := h ((stable_table _).calm.addHold l c rfl) hs
  removeHold l c _ hs := h ((stable_table _).calm.removeHold l c rfl) hs
  deriveSink hs := h ((stable_table _).calm.deriveSink rfl) hs
  postReason l r hs := h ((stable_table _).calm.postReason l r rfl) hs
  clearEmission l hs := h ((stable_table _).clearEmission l rfl) hs
  halfHourCloses l b hs := h ((stable_table _).halfHourCloses l b rfl) hs
  newYear {s} _ hs := h (s := s) rfl hs
  addTripCause l c hs := h ((stable_table _).calm.addTripCause l c rfl) hs
  tripReset l hs := h ((stable_table _).calm.tripReset l rfl) hs
  scrub hs := h ((stable_table _).calm.scrub rfl) hs

/-! ### Order of a pair once an entry is written -/

theorem drumOrdered_iff {s : State} {l : Line} :
    s.drumOrdered l = true ↔ s.lineLimit l .drumLowLow < s.lineLimit l .drumLow :=
  decide_eq_true_iff

theorem drumOrdered_withEntry_other {s : State} (sized : s.limits.entries.length = 52) {i : LimitId} (e : LimitEntry)
    {l : Line} (low : i ≠ .line l .drumLow) (lowLow : i ≠ .line l .drumLowLow) :
    (s.withEntry i e).drumOrdered l = s.drumOrdered l := by
  unfold State.drumOrdered
  rw [lineLimit_withEntry sized, lineLimit_withEntry sized, if_neg (Ne.symm low), if_neg (Ne.symm lowLow)]

/-- A written entry leaves every pair ordered where it leaves its own pair ordered. -/
theorem drumOrdered_of_pairOrdered {s : State} (sized : s.limits.entries.length = 52) {i : LimitId} {e : LimitEntry}
    (h : (s.withEntry i e).pairOrdered i = true) {l : Line} (hl : s.drumOrdered l = true) :
    (s.withEntry i e).drumOrdered l = true := by
  by_cases low : i = .line l .drumLow
  · subst low
    exact h
  · by_cases lowLow : i = .line l .drumLowLow
    · subst lowLow
      exact h
    · rwa [drumOrdered_withEntry_other sized e low lowLow]

/-- A DRUM_LOW_LOW override cleared lowers the entry, or leaves it (R63). -/
theorem drumOrdered_clearLowLow {s : State} (h : s.tightTable) {l : Line} (hl : s.drumOrdered l = true) :
    (s.withEntry (.line l .drumLowLow) ⟨(s.limitEntry (.line l .drumLowLow)).commissioned, none⟩).drumOrdered l = true := by
  obtain ⟨sized, tight⟩ := h
  have lower : (s.limitEntry (.line l .drumLowLow)).commissioned ≤ s.lineLimit l .drumLowLow :=
    LimitEntry.le_effective rfl (tight (.line l .drumLowLow))
  rw [drumOrdered_iff] at hl ⊢
  rw [lineLimit_withEntry sized, lineLimit_withEntry sized, if_pos rfl, if_neg (by simp)]
  exact lower.trans_lt hl

/-- FREEZE accepts no table whose pairs are not ordered as effective (R71). -/
theorem drumOrdered_of_freezable {s : State} (h : s.freezable = true) (l : Line) : s.drumOrdered l = true := by
  simp only [State.freezable, Bool.and_eq_true, List.all_cons, List.all_nil, Bool.and_true] at h
  obtain ⟨-, ⟨-, one⟩, -, two⟩ := h
  cases l
  · exact one
  · exact two

namespace State.drumPairsOrdered

theorem of_table {s t : State} (ht : t.table = s.table) (h : s.drumPairsOrdered) : t.drumPairsOrdered := by
  obtain ⟨sized, tight, ordered⟩ := h
  have entries : t.limits.entries = s.limits.entries := congrArg Prod.fst ht
  have mode : t.limits.mode = s.limits.mode := congrArg Prod.snd ht
  have same (i : LimitId) : t.limitEntry i = s.limitEntry i := congrArg (fun e => e.getD i.index ⟨0, none⟩) entries
  refine ⟨entries ▸ sized, fun i => same i ▸ tight i, fun hm l => ?_⟩
  unfold State.lineLimit State.limit
  rw [same, same]
  exact ordered (mode ▸ hm) l

variable {s : State} (h : s.drumPairsOrdered)
include h

theorem tightTable : s.tightTable := by
  obtain ⟨sized, tight, -⟩ := h
  exact ⟨sized, tight⟩

theorem drumOrdered (hm : s.limits.mode = .operate) (l : Line) : s.drumOrdered l = true := by
  obtain ⟨-, -, ordered⟩ := h
  exact drumOrdered_iff.mpr (ordered hm l)

theorem withEntry {i : LimitId} {e : LimitEntry} (tight : e.tight i)
    (ordered : s.limits.mode = .operate → ∀ l, (s.withEntry i e).drumOrdered l = true) :
    (s.withEntry i e).drumPairsOrdered := by
  obtain ⟨sized', tight'⟩ := tightTable_withEntry h.tightTable tight
  exact ⟨sized', tight', fun hm l => drumOrdered_iff.mp (ordered hm l)⟩

/-! ### The requests that write the limit table -/

theorem setLimit (index : Nat) (v : Int) : (Machine.setLimit index v s).2.drumPairsOrdered := by
  rcases setLimit_outcomes index v s with he | ⟨i, hm, -, he⟩ <;> rw [he]
  · exact h
  · refine (guarded_table of_table).writeLimit (h.withEntry (LimitEntry.tight_filter i v _) fun ho => ?_)
    rw [hm] at ho
    cases ho

theorem setOverride (index : Nat) (v : Int) : (Machine.setOverride index v s).2.drumPairsOrdered := by
  rcases setOverride_outcomes index v s with he | ⟨i, hv, pair, he⟩ <;> rw [he]
  · exact h
  · exact (guarded_table of_table).writeLimit (h.withEntry (LimitEntry.tight_some hv) fun hm l =>
      drumOrdered_of_pairOrdered h.tightTable.1 pair (h.drumOrdered hm l))

theorem clearOverride (index : Nat) : (Machine.clearOverride index s).2.drumPairsOrdered := by
  rcases clearOverride_outcomes index s with he | ⟨i, low, he⟩ <;> rw [he]
  · exact h
  · refine (guarded_table of_table).writeLimit (h.withEntry (LimitEntry.tight_none i _) fun hm l => ?_)
    by_cases isLow : i = .line l .drumLow
    · exact low l isLow
    · by_cases isLowLow : i = .line l .drumLowLow
      · subst isLowLow
        exact drumOrdered_clearLowLow h.tightTable (h.drumOrdered hm l)
      · rw [drumOrdered_withEntry_other h.tightTable.1 _ isLow isLowLow]
        exact h.drumOrdered hm l

theorem freeze : (Machine.freeze s).2.drumPairsOrdered := by
  rcases freeze_outcomes s with he | ⟨freezable, he⟩ <;> rw [he]
  · exact h
  · obtain ⟨sized, tight, -⟩ := h
    exact ⟨sized, tight, fun _ l => drumOrdered_iff.mp (drumOrdered_of_freezable freezable l)⟩

end State.drumPairsOrdered

/-! ### Every step -/

theorem drumPairsOrdered_reset : State.reset.drumPairsOrdered :=
  ⟨tightTable_reset.1, tightTable_reset.2, fun hm => (by cases hm)⟩

theorem tableAndResets_drumPairsOrdered : TableAndResets State.drumPairsOrdered where
  powerOn _ _ := drumPairsOrdered_reset.of_table rfl
  line _ _ h := h.of_table rfl
  soft _ h := h.of_table rfl
  setLimit index v h := h.setLimit index v
  setOverride index v h := h.setOverride index v
  clearOverride index h := h.clearOverride index
  freeze h := h.freeze

/-- Settles O58: in OPERATE only the override requests write an entry, and they test the pair; FREEZE tests both. -/
theorem drumPairsOrderedAlways : Obligations.DrumPairsOrderedAlways := fun _ _ h hx =>
  (guarded_table State.drumPairsOrdered.of_table).step tableAndResets_drumPairsOrdered h hx

end Sys2Proof.Machine
end

section
/-! SUPPORT. The requests of the limit table: their arguments, their tests, and what a delivered change leaves (R65 to
R71). -/

namespace Sys2Proof.Machine

/-! ### A change of an effective value delivered -/

/-- What receives a limit change leaves all but the blocks that jobs write (R69, R70). -/
theorem lessUpdates_deliverLimit (i : LimitId) (s : State) : (deliverLimit i s).lessUpdates = s.lessUpdates := by
  have of_feed {t u : State} (h : u.lessFeed = t.lessFeed) : u.lessUpdates = t.lessUpdates :=
    lessUpdates_of_plant (lessPlant_of_feed h)
  have of_load {t u : State} (h : u.lessLoad = t.lessLoad) : u.lessUpdates = t.lessUpdates :=
    lessUpdates_of_plant (lessPlant_of_load h)
  cases i with
  | line l k =>
    cases k with
    | furnaceMin => exact lessUpdates_of_jobAction (.furnace l) s
    | furnaceHyst => exact lessUpdates_of_jobAction (.furnace l) s
    | bedCeiling => exact of_feed (lessFeed_releaseCheck l s)
    | strokeCharge => exact of_feed (lessFeed_releaseCheck l s)
    | episodeCap =>
      unfold deliverLimit episodeCapChange
      dsimp only
      split
      · exact of_feed (lessFeed_postReason l .episodeCap s)
      · rfl
    | hhLimit p =>
      unfold deliverLimit hhLimitChange
      dsimp only
      split
      · exact lessUpdates_setBand l p _ s
      · rfl
    | budget => exact of_feed (lessFeed_postBudget l s)
    | drumLow =>
      refine deliver_keeps State.lessUpdates (fun t n => lessUpdates_of_plant (lessPlant_choose t n)) _
        (fun q hq act hact => lessUpdates_of_jobAction ?_) s
      simp only [List.mem_cons, List.not_mem_nil, or_false] at hq
      rcases hq with rfl | rfl
      · exact List.mem_singleton.mp hact ▸ .steam
      · exact jobAction_of_drum hact
    | drumLowLow => exact lessUpdates_of_jobAction (.trip l false) s
    | drumGrace =>
      unfold deliverLimit graceChange
      dsimp only
      split
      · exact lessUpdates_of_plant (lessPlant_addTripCause l .drumLowLow s)
      · rfl
    | burnRate => rfl
    | strokeTol => rfl
    | o2Ref => rfl
    | dayLimit _ => rfl
  | plant k =>
    cases k with
    | maxLoad =>
      refine inAnyOrder_keeps State.lessUpdates (fun t n => lessUpdates_of_plant (lessPlant_choose t n)) _
        (fun act hact t => ?_) s
      simp only [List.mem_cons, List.not_mem_nil, or_false] at hact
      rcases hact with rfl | rfl
      · exact of_load (lessLoad_recomputeAllowed .routine t)
      · unfold runbackMaxLoad
        split
        · split
          · exact (of_load (lessLoad_capPosted none _)).trans rfl
          · rfl
        · rfl
    | steamFactor => exact lessUpdates_of_jobAction .steam s
    | blockMinSamples => rfl
    | dayMinValid => rfl

/-- A written entry is all of the table that a write changes; the change delivered writes neither table nor requests. -/
theorem lessUpdates_writeLimit (i : LimitId) (e : LimitEntry) (s : State) :
    (writeLimit i e s).lessUpdates = (s.withEntry i e).lessUpdates := by
  unfold writeLimit
  dsimp only
  split
  · rfl
  · exact lessUpdates_deliverLimit i _

/-! ### Executions that write an entry -/

/-- The execution of a ready request whose body writes an entry: it is answered DONE, and the entry is what changes of the
limit table. -/
theorem serve_writeLimit {row : Instr} {r : Request} {rest : List Request} {s : State} {body : Request → State → Answer}
    (h : Ready row r rest s) {i : LimitId} {e : LimitEntry}
    (hb : body r (s.beginExecution rest) = answer .done (writeLimit i e (s.beginExecution rest))) :
    Answered r rest .done [] s.ownStation (serve row body s) ∧
      (serve row body s).limits = { s.limits with entries := s.limits.entries.set i.index e } := by
  have left := lessUpdates_writeLimit i e (s.beginExecution rest)
  generalize writeLimit i e (s.beginExecution rest) = u at hb left
  have requests : u.requests = rest := read_of_erased (read := State.requests) State.lessUpdates (fun _ => rfl) left
  have own : u.ownStation = s.ownStation :=
    (read_of_erased (read := State.ownStation) State.lessUpdates (fun _ => rfl) left).trans rfl
  have limits : u.limits = { s.limits with entries := s.limits.entries.set i.index e } :=
    read_of_erased (read := State.limits) State.lessUpdates (fun _ => rfl) left
  obtain ⟨answered, notices⟩ := serve_answered h hb requests own
  exact ⟨answered, (congrArg (fun t => t.limits) notices).trans limits⟩

/-! ### Arguments and ranges -/

theorem s16At_afterIndex (index : Byte) {v : Int} (h1 : -32768 ≤ v) (h2 : v ≤ 32767) : s16At ([index] ++ sbe16 v) 1 = v := by
  have := s16At_sbe16 [index] [] h1 h2
  rwa [List.append_nil] at this

theorem LimitId.inRange_iff {i : LimitId} {v : Int} : i.inRange v = true ↔ i.range.1 ≤ v ∧ v ≤ i.range.2 := by
  simp [LimitId.inRange]

theorem LimitId.inRange_of_outside {i : LimitId} {v : Int} (h : v < i.range.1 ∨ i.range.2 < v) : i.inRange v = false := by
  refine Bool.eq_false_iff.mpr fun hr => ?_
  have := LimitId.inRange_iff.mp hr
  omega

/-! ### SET_LIMIT -/

theorem setLimit_above {n : Nat} (h : 51 < n) (v : Int) (s : State) : setLimit n v s = (.refusedRange, s) := by
  unfold setLimit
  rw [LimitId.ofIndex?_above h]

theorem setLimit_index (i : LimitId) (v : Int) (s : State) : setLimit i.index v s =
    if s.limits.mode = .operate then (.refusedMode, s)
    else if !i.inRange v then (.refusedRange, s)
    else (.done, writeLimit i ⟨v, (s.limitEntry i).override.filter fun o => !i.looser o v⟩ s) := by
  unfold setLimit
  rw [LimitId.ofIndex?_index]

theorem setLimit_operate {s : State} (h : s.limits.mode = .operate) (i : LimitId) (v : Int) :
    setLimit i.index v s = (.refusedMode, s) := by
  rw [setLimit_index, if_pos h]

theorem setLimit_outside {s : State} (h : s.limits.mode = .commission) {i : LimitId} {v : Int}
    (hv : v < i.range.1 ∨ i.range.2 < v) : setLimit i.index v s = (.refusedRange, s) := by
  rw [setLimit_index, h, LimitId.inRange_of_outside hv]
  rfl

theorem setLimit_within {s : State} (h : s.limits.mode = .commission) {i : LimitId} {v : Int} (low : i.range.1 ≤ v)
    (high : v ≤ i.range.2) : setLimit i.index v s =
      (.done, writeLimit i ⟨v, (s.limitEntry i).override.filter fun o => !i.looser o v⟩ s) := by
  rw [setLimit_index, h, LimitId.inRange_iff.mpr ⟨low, high⟩]
  rfl

/-- Settles O39: the tests of R65 in their order, and the entry that the write puts in place. -/
theorem setLimitEffect : Obligations.SetLimitEffect := by
  intro r rest index v s ready hargs h1 h2 _
  have hl : r.args.length = 3 := by rw [hargs]; rfl
  have hbody : sized 3 setLimitBody r (s.beginExecution rest) =
      answerPair (setLimit index.toNat v (s.beginExecution rest)) := by
    rw [sized_of_length _ hl, setLimitBody, hargs, s16At_afterIndex index h1 h2]
    rfl
  refine ⟨fun above => ?_, fun i hi => ?_⟩
  · rw [setLimit_above above] at hbody
    exact congrArg Host.Outcome.next (serve_refused ready hbody)
  · rw [← hi] at hbody ⊢
    refine ⟨fun hm => ?_, fun hm outside => ?_, fun hm low high => ?_⟩
    · rw [setLimit_operate (by exact hm)] at hbody
      exact congrArg Host.Outcome.next (serve_refused ready hbody)
    · rw [setLimit_outside (by exact hm) outside] at hbody
      exact congrArg Host.Outcome.next (serve_refused ready hbody)
    · rw [setLimit_within (by exact hm) low high] at hbody
      obtain ⟨answered, limits⟩ := serve_writeLimit ready hbody
      exact ⟨_, rfl, answered, limits⟩

end Sys2Proof.Machine
end

section
/-! SUPPORT. SET_OVERRIDE, CLEAR_OVERRIDE and FREEZE (R66 to R68, R71, R72). -/

namespace Sys2Proof.Machine

/-! ### The drum pair with an entry in place -/

theorem drumOrdered_withLow {s : State} (sized : s.limits.entries.length = 52) (l : Line) (e : LimitEntry) :
    (s.withEntry (.line l .drumLow) e).drumOrdered l = true ↔ s.lineLimit l .drumLowLow < e.effective := by
  rw [drumOrdered_iff, lineLimit_withEntry sized, lineLimit_withEntry sized, if_neg (by simp), if_pos rfl]

theorem drumOrdered_withLowLow {s : State} (sized : s.limits.entries.length = 52) (l : Line) (e : LimitEntry) :
    (s.withEntry (.line l .drumLowLow) e).drumOrdered l = true ↔ e.effective < s.lineLimit l .drumLow := by
  rw [drumOrdered_iff, lineLimit_withEntry sized, lineLimit_withEntry sized, if_pos rfl, if_neg (by simp)]

/-- The pair of a written entry is ordered where the entry keeps to its side of the other one (R67). -/
theorem pairOrdered_withEntry {s : State} (sized : s.limits.entries.length = 52) {i : LimitId} {e : LimitEntry}
    (lowLow : ∀ l, i = .line l .drumLowLow → e.effective < s.lineLimit l .drumLow)
    (low : ∀ l, i = .line l .drumLow → s.lineLimit l .drumLowLow < e.effective) :
    (s.withEntry i e).pairOrdered i = true := by
  unfold State.pairOrdered
  split
  · exact (drumOrdered_withLow sized _ e).mpr (low _ rfl)
  · exact (drumOrdered_withLowLow sized _ e).mpr (lowLow _ rfl)
  · rfl

/-! ### SET_OVERRIDE -/

theorem setOverride_above {n : Nat} (h : 51 < n) (v : Int) (s : State) : setOverride n v s = (.refusedRange, s) := by
  unfold setOverride
  rw [LimitId.ofIndex?_above h]

theorem setOverride_index (i : LimitId) (v : Int) (s : State) : setOverride i.index v s =
    if !i.acceptsOverride then (.badRequest, s)
    else if !i.inRange v then (.refusedRange, s)
    else if i.looser v (s.limitEntry i).commissioned then (.refusedLoosen, s)
    else if !(s.withEntry i { s.limitEntry i with override := some v }).pairOrdered i then (.refusedRange, s)
    else (.done, writeLimit i { s.limitEntry i with override := some v } s) := by
  unfold setOverride
  rw [LimitId.ofIndex?_index]

theorem setOverride_refusing {i : LimitId} (h : i.acceptsOverride = false) (v : Int) (s : State) :
    setOverride i.index v s = (.badRequest, s) := by
  rw [setOverride_index, h]
  rfl

theorem setOverride_outside {i : LimitId} (h : i.acceptsOverride = true) {v : Int} (hv : v < i.range.1 ∨ i.range.2 < v)
    (s : State) : setOverride i.index v s = (.refusedRange, s) := by
  rw [setOverride_index, h, LimitId.inRange_of_outside hv]
  rfl

section
variable {i : LimitId} (h : i.acceptsOverride = true) {v : Int} (low : i.range.1 ≤ v) (high : v ≤ i.range.2) {s : State}
include h low high

theorem setOverride_looser (hl : i.looser v (s.limitEntry i).commissioned = true) :
    setOverride i.index v s = (.refusedLoosen, s) := by
  rw [setOverride_index, h, LimitId.inRange_iff.mpr ⟨low, high⟩, hl]
  rfl

theorem setOverride_unordered (hl : i.looser v (s.limitEntry i).commissioned = false)
    (hp : (s.withEntry i { s.limitEntry i with override := some v }).pairOrdered i = false) :
    setOverride i.index v s = (.refusedRange, s) := by
  rw [setOverride_index, h, LimitId.inRange_iff.mpr ⟨low, high⟩, hl, hp]
  rfl

theorem setOverride_ordered (hl : i.looser v (s.limitEntry i).commissioned = false)
    (hp : (s.withEntry i { s.limitEntry i with override := some v }).pairOrdered i = true) :
    setOverride i.index v s = (.done, writeLimit i { s.limitEntry i with override := some v } s) := by
  rw [setOverride_index, h, LimitId.inRange_iff.mpr ⟨low, high⟩, hl, hp]
  rfl

end

/-! ### CLEAR_OVERRIDE -/

theorem clearOverride_above {n : Nat} (h : 51 < n) (s : State) : clearOverride n s = (.refusedRange, s) := by
  unfold clearOverride
  rw [LimitId.ofIndex?_above h]

theorem clearOverride_refusing {i : LimitId} (h : i.acceptsOverride = false) (s : State) :
    clearOverride i.index s = (.badRequest, s) := by
  unfold clearOverride
  rw [LimitId.ofIndex?_index]
  dsimp only
  rw [h]
  rfl

theorem clearOverride_absent {i : LimitId} (h : i.acceptsOverride = true) {s : State}
    (ho : (s.limitEntry i).override = none) : clearOverride i.index s = (.ignored, s) := by
  unfold clearOverride
  rw [LimitId.ofIndex?_index]
  dsimp only
  rw [h, ho]
  rfl

theorem clearOverride_unordered {l : Line} {s : State} (ho : (s.limitEntry (.line l .drumLow)).override ≠ none)
    (hp : (s.withEntry (.line l .drumLow) { s.limitEntry (.line l .drumLow) with override := none }).drumOrdered l = false) :
    clearOverride (LimitId.line l .drumLow).index s = (.refusedRange, s) := by
  obtain ⟨v, hv⟩ := Option.ne_none_iff_exists'.mp ho
  unfold clearOverride
  rw [LimitId.ofIndex?_index]
  simp only [hp, hv, LimitId.acceptsOverride]
  rfl

theorem clearOverride_ordered {i : LimitId} (h : i.acceptsOverride = true) {s : State}
    (ho : (s.limitEntry i).override ≠ none)
    (hp : ∀ l, i = .line l .drumLow → (s.withEntry i { s.limitEntry i with override := none }).drumOrdered l = true) :
    clearOverride i.index s = (.done, writeLimit i { s.limitEntry i with override := none } s) := by
  obtain ⟨v, hv⟩ := Option.ne_none_iff_exists'.mp ho
  unfold clearOverride
  rw [LimitId.ofIndex?_index]
  refine (if_neg ?_).trans ((if_neg ?_).trans (if_neg ?_))
  · simp [h]
  · simp [hv]
  · split
    · simpa using hp _ rfl
    · exact Bool.false_ne_true

/-! ### The two requests answered -/

section
variable {r : Request} {rest : List Request} {index : Byte} {s : State}

/-- SET_OVERRIDE of an index and a value, read from its arguments. -/
theorem setOverride_body {v : Int} (hargs : r.args = [index] ++ sbe16 v) (h1 : -32768 ≤ v) (h2 : v ≤ 32767) :
    sized 3 setOverrideBody r (s.beginExecution rest) =
      answerPair (setOverride index.toNat v (s.beginExecution rest)) := by
  have hl : r.args.length = 3 := by rw [hargs]; rfl
  rw [sized_of_length _ hl, setOverrideBody, hargs, s16At_afterIndex index h1 h2]
  rfl

theorem clearOverride_body (hargs : r.args = [index]) :
    sized 1 clearOverrideBody r (s.beginExecution rest) =
      answerPair (clearOverride index.toNat (s.beginExecution rest)) := by
  have hl : r.args.length = 1 := by rw [hargs]; rfl
  rw [sized_of_length _ hl, clearOverrideBody, hargs]
  rfl

theorem exec_setOverride_refused (ready : Ready .setOverride r rest s) {n : Nat} {v : Int} {st : Status}
    (hb : sized 3 setOverrideBody r (s.beginExecution rest) = answerPair (setOverride n v (s.beginExecution rest)))
    (h : setOverride n v (s.beginExecution rest) = (st, s.beginExecution rest)) :
    exec .setOverride s = .next (withReply r rest st [] s) :=
  congrArg Host.Outcome.next (serve_refused ready (hb.trans (congrArg answerPair h)))

theorem exec_clearOverride_refused (ready : Ready .clearOverride r rest s) {n : Nat} {st : Status}
    (hb : sized 1 clearOverrideBody r (s.beginExecution rest) = answerPair (clearOverride n (s.beginExecution rest)))
    (h : clearOverride n (s.beginExecution rest) = (st, s.beginExecution rest)) :
    exec .clearOverride s = .next (withReply r rest st [] s) :=
  congrArg Host.Outcome.next (serve_refused ready (hb.trans (congrArg answerPair h)))

end

/-- Settles O40: the tests of R66 and R68 in their order, and the entry that each request puts in place. -/
theorem overridesEffect : Obligations.OverridesEffect := by
  intro r rest index v s h1 h2 sized
  refine ⟨fun above => ⟨fun ready hargs => ?_, fun ready hargs => ?_⟩,
    fun i hi => ⟨fun ready hargs => ?_, fun ready hargs => ?_⟩⟩
  · exact exec_setOverride_refused ready (setOverride_body hargs h1 h2) (setOverride_above above v _)
  · exact exec_clearOverride_refused ready (clearOverride_body hargs) (clearOverride_above above _)
  · have hbody := setOverride_body (rest := rest) (s := s) hargs h1 h2
    rw [← hi] at hbody
    refine ⟨fun no => ?_, fun yes outside => ?_, fun yes low high => ⟨fun loose => ?_, fun strict => ⟨?_, ?_, ?_⟩⟩⟩
    · exact exec_setOverride_refused ready hbody (setOverride_refusing no v _)
    · exact exec_setOverride_refused ready hbody (setOverride_outside yes outside _)
    · exact exec_setOverride_refused ready hbody (setOverride_looser yes low high loose)
    · intro l hl above
      subst hl
      refine exec_setOverride_refused ready hbody (setOverride_unordered yes low high strict (Bool.eq_false_iff.mpr ?_))
      exact fun hp => absurd ((drumOrdered_withLowLow (by exact sized) l _).mp hp) (Int.not_lt.mpr above)
    · intro l hl below
      subst hl
      refine exec_setOverride_refused ready hbody (setOverride_unordered yes low high strict (Bool.eq_false_iff.mpr ?_))
      exact fun hp => absurd ((drumOrdered_withLow (by exact sized) l _).mp hp) (Int.not_lt.mpr below)
    · intro lowLow onLow
      have ordered := setOverride_ordered (s := s.beginExecution rest) yes low high strict
        (pairOrdered_withEntry (by exact sized) lowLow onLow)
      obtain ⟨answered, limits⟩ := serve_writeLimit ready (hbody.trans (congrArg answerPair ordered))
      exact ⟨_, rfl, answered, limits⟩
  · have hbody := clearOverride_body (rest := rest) (s := s) hargs
    rw [← hi] at hbody
    refine ⟨fun no => ?_, fun yes => ⟨fun absent => ?_, fun held => ⟨?_, ?_⟩⟩⟩
    · exact exec_clearOverride_refused ready hbody (clearOverride_refusing no _)
    · exact exec_clearOverride_refused ready hbody (clearOverride_absent yes absent)
    · intro l hl below
      subst hl
      refine exec_clearOverride_refused ready hbody (clearOverride_unordered held (Bool.eq_false_iff.mpr ?_))
      exact fun hp => absurd ((drumOrdered_withLow (by exact sized) l _).mp hp) (Int.not_lt.mpr below)
    · intro above
      have ordered := clearOverride_ordered (s := s.beginExecution rest) yes held fun l hl => by
        subst hl
        exact (drumOrdered_withLow (by exact sized) l _).mpr (above l rfl)
      obtain ⟨answered, limits⟩ := serve_writeLimit ready (hbody.trans (congrArg answerPair ordered))
      exact ⟨_, rfl, answered, limits⟩

/-! ### FREEZE -/

theorem freeze_operate {s : State} (h : s.limits.mode = .operate) : freeze s = (.refusedMode, s) := if_pos h

theorem freeze_unsound {s : State} (h : s.limits.mode = .commission) (hf : s.freezable = false) :
    freeze s = (.refusedRange, s) := by
  unfold freeze
  rw [h, hf]
  rfl

theorem freeze_sound {s : State} (h : s.limits.mode = .commission) (hf : s.freezable = true) : freeze s =
    (.done, s.modLimits fun t => { t with checkCode := s.computedCode, scrubCount := 0, mode := .operate }) := by
  unfold freeze
  rw [h, hf]
  rfl

/-- Settles O41: FREEZE answers by mode and table, and the code it holds is that of the commissioned values. -/
theorem freezeEffect : Obligations.FreezeEffect := by
  intro r rest s ready confirms
  have hbody : confirmed 0 freezeBody r (s.beginExecution rest) = answerPair (freeze (s.beginExecution rest)) :=
    confirmed_of_found (Nat.zero_le _) confirms
  refine ⟨fun hm => ?_, fun hm sound => ?_, fun hm unsound => ?_⟩
  · rw [freeze_operate (by exact hm)] at hbody
    exact congrArg Host.Outcome.next (serve_refused ready hbody)
  · rw [freeze_sound (by exact hm) (by exact sound)] at hbody
    exact congrArg Host.Outcome.next (serve_without_notices ready hbody rfl)
  · rw [freeze_unsound (by exact hm) (by exact unsound)] at hbody
    exact congrArg Host.Outcome.next (serve_refused ready hbody)

end Sys2Proof.Machine
end

section
/-! SUPPORT. The scrub of the tenth tick and the storage fault (R73, R74). -/

namespace Sys2Proof.Machine

/-! ### What a mismatch records -/

theorem attention_recordTrip (l : Line) (c : TripCause) (s : State) :
    (recordTrip l c s).attention.causes.length = s.attention.causes.length := by
  unfold recordTrip
  split
  · rfl
  · exact causes_setCause ..

theorem lessPlant_recordBoth (s : State) :
    (recordTrip .two .integrity (recordTrip .one .integrity s)).lessPlant = s.lessPlant :=
  (lessPlant_recordTrip .two .integrity _).trans (lessPlant_recordTrip .one .integrity s)

theorem hasSet_faultRecorded {s : State} (h : s.attention.causes.length = 15) :
    (faultRecorded s).HasSet .limitFault ⟨none, s.plantTime, 0⟩ := by
  have length : (recordTrip .two .integrity (recordTrip .one .integrity s)).attention.causes.length = 15 :=
    (attention_recordTrip .two .integrity _).trans ((attention_recordTrip .one .integrity s).trans h)
  have time : (recordTrip .two .integrity (recordTrip .one .integrity s)).plantTime = s.plantTime :=
    read_of_erased (read := State.plantTime) State.lessPlant (fun _ => rfl) (lessPlant_recordBoth s)
  rw [← time]
  exact hasSet_setCause length .limitFault none 0

/-- What a scrub that finds a mismatch leaves: both sets with INTEGRITY, LIMIT_FAULT, and TRIPPED where it was owed. -/
structure Mismatched (s t : State) : Prop where
  limits : t.limits = s.limits
  fault : t.HasSet .limitFault ⟨none, s.plantTime, 0⟩
  causes : ∀ l, (t.tripOf l).causes = { (s.tripOf l).causes with integrity := true }
  tripped : ∀ l, (s.tripOf l).causes.isEmpty = true → t.Held l .tripped

theorem mismatched_scrub {s : State} (h : s.attention.causes.length = 15) (differs : s.computedCode ≠ s.limits.checkCode) :
    Mismatched s (scrub s) := by
  have plant : (scrub s).lessPlant = s.lessPlant := (calm_lessPlant s).scrub rfl
  rw [scrub_of_mismatch differs] at plant ⊢
  have posted := posted_posts (fun _ => scrubPosts_trip) (faultRecorded s) (acts := s.scrubPosts)
  have same := (plain_sameTrips (faultRecorded s)).inAnyOrder (acts := s.scrubPosts) (fun act hact => by
    obtain ⟨l, hl⟩ := scrubPosts_trip hact
    exact (plain_sameTrips (faultRecorded s)).tripPosts l true act hl) ⟨rfl, rfl, fun _ _ => rfl⟩
  refine ⟨read_of_erased (read := State.limits) State.lessPlant (fun _ => rfl) plant, ?_, fun l => ?_, fun l hl => ?_⟩
  · unfold State.HasSet
    rw [same.cause .limitFault (by decide)]
    exact hasSet_faultRecorded h
  · have recorded : ((faultRecorded s).tripOf l).causes = (s.tripOf l).causes.set .integrity true :=
      congrFun (congrArg Ground.causes (ground_faultRecorded s)) l
    exact (posted.causes l).trans recorded
  · exact held_posts (fun _ => scrubPosts_trip) _ (mem_scrubPosts hl)

/-- The NOTICEs of a scrub leave what it has recorded. -/
theorem Mismatched.noticed {s t : State} (h : Mismatched s t) (before : State) : Mismatched s (noticesSince before t) := by
  have ground := ground_noticesSince before t
  obtain ⟨status, held⟩ := h.fault
  refine ⟨Eq.trans ?_ h.limits, ⟨?_, ?_⟩, fun l => (causes_of_ground ground l).trans (h.causes l), fun l hl => ?_⟩
  · exact read_of_erased (read := State.limits) State.lessNotices (fun _ => rfl) (lessNotices_noticesSince before t)
  · rwa [noticesSince_keeps before t (by decide) CauseRecord.status fun _ => rfl]
  · rwa [noticesSince_keeps before t (by decide) CauseRecord.held fun _ => rfl]
  · unfold State.Held
    rw [feedOf_of_ground ground]
    exact h.tripped l hl

/-! ### The tenth tick -/

/-- The part at its tenth tick as the scrub finds it. -/
def State.scrubbing (s : State) : State :=
  { s with owedTick := s.owedTick.erase .limits, limits := { s.limits with scrubCount := 0 } }

theorem integrityScrub_of_tenth {s : State} (hr : s.resetAsserted = false) (owed : .limits ∈ s.owedTick)
    (hm : s.limits.mode = .operate) (tenth : s.limits.scrubCount = 9) :
    integrityScrub s = noticesSince { s with owedTick := s.owedTick.erase .limits } (scrub s.scrubbing) := by
  have due : decide (s.limits.mode = .operate ∧ 10 ≤ s.limits.scrubCount + 1) = true := by simp [hm, tenth]
  have ticked : scrubTick { s with owedTick := s.owedTick.erase .limits } = scrub s.scrubbing := by
    unfold scrubTick
    dsimp only
    rw [hm, tenth]
    rfl
  refine (unlessHeld_of_released hr _).trans ((if_pos ⟨owed, due⟩).trans ?_)
  rw [← ticked]
  exact if_pos owed

/-- Settles O22: the scrub compares the codes; its records stand through the posts and the NOTICEs. -/
theorem scrubAndStorageFault : Obligations.ScrubAndStorageFault := by
  refine ⟨fun s hr owed hm tenth length => ⟨fun agrees => ?_, fun differs => ?_⟩, fun code s => ⟨fun hm => ?_, fun hm => ?_⟩⟩
  · have scrubbed : scrub s.scrubbing = s.scrubbing := scrub_of_agreement agrees
    refine congrArg Host.Outcome.next ((integrityScrub_of_tenth hr owed hm tenth).trans ?_)
    rw [scrubbed]
    exact noticesSince_of_attention (s := s.scrubbing) rfl
  · have found := (mismatched_scrub (s := s.scrubbing) length differs).noticed
      { s with owedTick := s.owedTick.erase .limits }
    rw [← integrityScrub_of_tenth hr owed hm tenth] at found
    obtain ⟨status, held⟩ := found.fault
    exact ⟨_, rfl, found.limits, status, held, fun l => ⟨found.causes l, found.tripped l⟩⟩
  · refine congrArg Host.Outcome.next ?_
    unfold storageFault
    rw [hm]
    rfl
  · refine congrArg Host.Outcome.next ?_
    unfold storageFault
    rw [hm]

end Sys2Proof.Machine
end

section
/-! SUPPORT. The invariants after POWER_ON (R76, R118, R146, R174). -/

namespace Sys2Proof.Machine

/-! ### What POWER_ON leaves in each block -/

theorem feedOf_reset (l : Line) : State.reset.feedOf l = Feed.afterPowerOn := by cases l <;> rfl

theorem port_reset (p : PortId) : State.reset.port p = Port.initial := by cases p <;> rfl

/-- A capture store without a record has every source ARMED (R174). -/
theorem consistent_initial : CaptureStore.initial.consistent := by
  have empty : CaptureStore.initial.records = [] := rfl
  refine ⟨rfl, rfl, List.nodup_nil, fun src => ?_⟩
  rw [empty]
  have armed : CaptureStore.initial.armed.getD src.code true = true := by
    show (List.replicate 28 true).getD src.code true = true
    rw [List.getD_eq_getElem?_getD, List.getElem?_replicate]
    split <;> rfl
  rw [armed]
  simp

theorem queuesBounded_reset : State.reset.queuesBounded := by
  refine ⟨fun p => ?_, rfl, Nat.zero_le _, fun l => ?_⟩
  · rw [port_reset]
    decide
  · rw [feedOf_reset]
    exact Nat.zero_le _

theorem logBounded_reset : State.reset.logBounded :=
  logBounded_of_released (logSound_of_closed (Nat.zero_le _) fun _ he => nomatch he) rfl

theorem budgetHoldsFeed_reset : State.reset.budgetHoldsFeed := fun l => by
  rw [feedOf_reset]
  exact ⟨rfl, fun _ => rfl⟩

theorem strokesUnheld_reset : State.reset.strokesUnheld := fun l hl => by
  unfold State.inStroke at hl
  rw [feedOf_reset] at hl
  cases hl

theorem ordersSound_reset : State.reset.ordersSound := ⟨Nat.zero_le _, List.Pairwise.nil, List.nodup_nil⟩

/-- The allowed load is 0, and no term is below that (R149, R157). -/
theorem loadBounded_reset : State.reset.loadBounded :=
  ⟨Nat.zero_le _, Nat.zero_le _, Nat.zero_le _, fun _ _ => Nat.zero_le _⟩

theorem pointsSound_reset : State.reset.pointsSound := by
  have unset : State.reset.roster = List.replicate 96 none := List.map_replicate
  rw [pointsSound_iff, unset]
  exact agrees_empty

/-- Settles O4: block by block, from the values after POWER_ON. -/
theorem invariantsHoldAtReset : Obligations.InvariantsHoldAtReset := by
  obtain ⟨-, trips, -⟩ := bedsUnderCeiling_reset
  refine ⟨trips, fun _ l => ?_, budgetHoldsFeed_reset, strokesUnheld_reset, consistent_initial, queuesBounded_reset,
    ⟨rfl, rfl, rfl, rfl, rfl⟩, logBounded_reset, bedsUnderCeiling_reset, drumPairsOrdered_reset, ordersSound_reset,
    loadBounded_reset, pointsSound_reset⟩
  rw [feedOf_reset]
  rfl

end Sys2Proof.Machine
end

section
/-! SUPPORT. The range and the step limit of a setpoint (R84), and the conditions and the course of a release (R100, R101). -/

namespace Sys2Proof.Machine

/-! ### Range and step (R84) -/

/-- A value between two bounds is left between them by a clamp whose own range meets theirs. -/
theorem clamp_stays {lo hi a b v : Int} (ha : a ≤ hi) (hb : lo ≤ b) (hav : a ≤ v) (hvb : v ≤ b) :
    a ≤ clamp lo hi v ∧ clamp lo hi v ≤ b := by
  unfold clamp
  split_ifs <;> constructor <;> omega

/-- The step limit acts on an actuator: it has one, and its last forwarded value lies in range (R84). -/
def Actuator.StepsFrom (a : Actuator) (w : Int) : Prop :=
  a.last = some w ∧ a.maxStep ≠ 0 ∧ a.min ≤ w ∧ w ≤ a.max

theorem rangeAndStep_of_steps {a : Actuator} {w : Int} (h : a.StepsFrom w) (v : Int) :
    a.rangeAndStep v = clamp (w - a.maxStep) (w + a.maxStep) (clamp a.min a.max v) := by
  obtain ⟨last, limits⟩ := h
  unfold Actuator.rangeAndStep
  rw [last]
  exact if_pos limits

theorem rangeAndStep_of_free {a : Actuator} (h : ∀ w, ¬ a.StepsFrom w) (v : Int) :
    a.rangeAndStep v = clamp a.min a.max v := by
  unfold Actuator.rangeAndStep
  dsimp only
  split
  · rename_i w last
    exact if_neg fun limits => h w ⟨last, limits⟩
  · rfl

/-- The treatment of R84 keeps to the range, with or without the step limit. -/
theorem rangeAndStep_between {a : Actuator} (h : a.min ≤ a.max) (v : Int) :
    a.min ≤ a.rangeAndStep v ∧ a.rangeAndStep v ≤ a.max := by
  obtain ⟨low, high⟩ := clamp_between (v := v) h
  by_cases steps : ∃ w, a.StepsFrom w
  · obtain ⟨w, hw⟩ := steps
    rw [rangeAndStep_of_steps hw]
    obtain ⟨-, -, above, below⟩ := hw
    exact clamp_stays (by omega) (by omega) low high
  · rw [rangeAndStep_of_free (not_exists.mp steps)]
    exact ⟨low, high⟩

theorem rangeAndStep_within_step {a : Actuator} {w : Int} (h : a.StepsFrom w) (v : Int) :
    w - a.maxStep ≤ a.rangeAndStep v ∧ a.rangeAndStep v ≤ w + a.maxStep := by
  rw [rangeAndStep_of_steps h]
  exact clamp_between (by omega)

/-- A value in range and, where the step limit acts, in step is left as it is. -/
theorem rangeAndStep_of_good {a : Actuator} {v : Int} (low : a.min ≤ v) (high : v ≤ a.max)
    (step : ∀ w, a.StepsFrom w → w - a.maxStep ≤ v ∧ v ≤ w + a.maxStep) : a.rangeAndStep v = v := by
  have inRange : clamp a.min a.max v = v := clamp_of_between low high
  by_cases steps : ∃ w, a.StepsFrom w
  · obtain ⟨w, hw⟩ := steps
    obtain ⟨down, up⟩ := step w hw
    rw [rangeAndStep_of_steps hw, inRange, clamp_of_between down up]
  · rw [rangeAndStep_of_free (not_exists.mp steps), inRange]

/-! ### The ram sought (R101) -/

/-- The seek answers the first position, from its start on and wrapping, whose ram is IN_SERVICE. -/
theorem seekRam_first {s : State} {l : Line} {start k : Nat} (h : s.seekRam l start = some k) :
    ∃ i, (start + i) % (s.rams l).length = k ∧
      ∀ j < i, ∀ ram, (s.rams l)[(start + j) % (s.rams l).length]? = some ram → s.inService ram = false := by
  unfold State.seekRam at h
  obtain ⟨-, i, hi, hk, before⟩ := List.find?_eq_some_iff_getElem.mp h
  rw [List.getElem_map, List.getElem_range] at hk
  refine ⟨i, hk, fun j hj ram hr => ?_⟩
  have passed := before j hj
  rw [List.getElem_map, List.getElem_range, hr] at passed
  simpa using passed

/-- A ram that the seek finds stands in the list, so some ram is IN_SERVICE. -/
theorem someRam_of_seekRam {s : State} {l : Line} {start k : Nat} (h : s.seekRam l start = some k) :
    s.someRam l = true := by
  obtain ⟨ram, listed, serves⟩ := seekRam_inService h
  exact List.any_eq_true.mpr ⟨ram, List.mem_of_getElem? listed, serves⟩

theorem inService_of_empty {s : State} {e : Nat} (h : s.actuator e = none) : s.inService e = false := by
  unfold State.inService
  rw [h]

/-! ### A release (R100, R101) -/

/-- The five conditions of a release (R100). -/
theorem mayRelease_iff {s : State} {l : Line} : s.mayRelease l = true ↔
    ∃ head rest, (s.feedOf l).engine = .ready ∧ (s.feedOf l).queue = head :: rest ∧ (s.feedOf l).holds.isEmpty = true ∧
      (s.feedOf l).bed + s.strokeCharge l head.length ≤ s.ceiling l ∧ s.someRam l = true := by
  unfold State.mayRelease
  split
  · rename_i head rest ready queued
    simp [ready, queued, and_assoc]
  · rename_i other
    refine iff_of_false Bool.false_ne_true ?_
    rintro ⟨head, rest, ready, queued, -⟩
    exact other head rest ready queued

/-- A unit that has released a stroke of a length and a charge to a ram: the rest of its queue, and the next rotation
position (R101). -/
def Feed.released (f : Feed) (length charge ram next : Nat) (rest : List Stroke) : Feed :=
  { f with
    queue := rest
    bed := f.bed + charge
    rotation := next
    engine := .inStroke ram (length * 10)
    timeoutCount := f.timeout }

/-- A release writes its unit and originates the ram's STROKE (R101). -/
theorem release_eq {l : Line} {s : State} {head : Stroke} {rest : List Stroke} {k ram : Nat} {a : Actuator}
    (queued : (s.feedOf l).queue = head :: rest) (sought : s.seekRam l (s.feedOf l).rotation = some k)
    (listed : (s.rams l)[k]? = some ram) (record : s.actuator ram = some a) :
    release l s = originateCommand .routine ⟨a.number, .stroke, head.length⟩ (s.modFeed l fun f =>
      f.released head.length (s.strokeCharge l head.length) ram ((k + 1) % (s.rams l).length) rest) := by
  have entry : (s.rams l).getD k 0 = ram := by rw [List.getD_eq_getElem?_getD, listed]; rfl
  unfold release
  rw [queued, sought]
  dsimp only
  rw [entry, originate_of_entry (s := s.modFeed l _) record, if_neg (by decide), ← originateCommand_modFeed]
  cases l <;> rfl

theorem feedOf_originateCommand (pr : Priority) (c : Command) (s : State) (l : Line) :
    (originateCommand pr c s).feedOf l = s.feedOf l :=
  congrArg (fun t => t.feed.get l) (lessOrigins_originateCommand pr c s)

end Sys2Proof.Machine
end

section
/-! The statements on setpoints and release checks. -/

namespace Sys2Proof.Machine

/-- Settles O15: by whether the step limit acts. -/
theorem rangedSetBounds : Obligations.RangedSetBounds := by
  intro a v ordered
  obtain ⟨low, high⟩ := rangeAndStep_between ordered v
  refine ⟨low, high, fun w last limited above below => ?_, fun above below step => ?_⟩
  · exact rangeAndStep_within_step ⟨last, limited, above, below⟩ v
  · exact rangeAndStep_of_good above below fun w ⟨last, limited, _, _⟩ => step w last limited

/-- Settles O19: a release with the ram that the seek finds, and no release where a condition of R100 fails. -/
theorem releaseCheckEffect : Obligations.ReleaseCheckEffect := by
  intro l s
  refine ⟨fun head rest k ready unheld queued under sought => ?_, fun k j ram sought _ listed => ?_,
    fun ram empty => inService_of_empty empty, fun unmet => ?_⟩
  · obtain ⟨ram, listed, serves⟩ := seekRam_inService sought
    obtain ⟨a, record, inService⟩ := actuator_of_inService serves
    have may : s.mayRelease l = true :=
      mayRelease_iff.mpr ⟨head, rest, ready, queued, unheld, under, someRam_of_seekRam sought⟩
    have released : releaseCheck l s = _ := (if_pos may).trans (release_eq queued sought listed record)
    refine ⟨ram, a, listed, record, inService, released, ?_⟩
    rw [released, feedOf_originateCommand, State.feedOf_modFeed_self]
    rfl
  · obtain ⟨i, hk, passed⟩ := seekRam_first sought
    rcases Nat.lt_trichotomy i j with before | rfl | after
    · exact .inr (.inr ⟨i, before, hk⟩)
    · exact .inl hk
    · exact .inr (.inl (passed j after ram listed))
  · refine releaseCheck_of_not_mayRelease (Bool.eq_false_iff.mpr fun may => ?_)
    obtain ⟨head, rest, ready, queued, unheld, under, ram⟩ := mayRelease_iff.mp may
    rcases unmet with engine | held | idle | noRam | ⟨head', rest', queued', heavy⟩
    · exact engine ready
    · exact absurd (unheld.symm.trans held) (by decide)
    · exact absurd (queued.symm.trans idle) (List.cons_ne_nil _ _)
    · exact absurd (ram.symm.trans noRam) (by decide)
    · obtain ⟨rfl, -⟩ := List.cons.inj (queued.symm.trans queued')
      exact absurd under (Nat.not_le.mpr heavy)

end Sys2Proof.Machine
end

section
/-! SUPPORT. WRITE_ENTRY on ACTUATORS: what follows an entry written (R79, R80, R82, R93). -/

namespace Sys2Proof.Machine

/-! ### What follows a write (R82, R93) -/

namespace Plain
variable {P : State → Prop} (h : Plain P) {s : State}
include h

theorem ramWritten (entry : Nat) (old : Option Actuator) (new : Actuator) (hs : P s) :
    P (ramWritten entry old new s) := by
  unfold Machine.ramWritten
  split
  · exact keeps_ite hs (inTurn_holds (fun l _ ht => keeps_ite (h.ramChange l ht) ht) hs)
  · exact hs

theorem actuatorWriteBounds (entry : Nat) (before : Option Actuator) (hs : P s) :
    P (actuatorWriteBounds entry before s) := by
  have rewritten (n : Nat) (b : Bound) : P (s.rewrite n b).1 := h.rewrite s n b hs
  unfold Machine.actuatorWriteBounds
  split
  · exact keeps_ite (keeps_ite (h.floorRise _ _ (rewritten _ _)) (rewritten _ _))
      (keeps_ite (keeps_ite hs (rewritten _ _)) hs)
  · exact hs

end Plain

/-! ### The entry as stored (R79) -/

/-- What is kept of the record before is its last forwarded value alone. -/
theorem lessLast_keeping (a : Actuator) (old : Option Actuator) : (a.keeping old).lessLast = a.lessLast := by
  unfold Actuator.keeping
  split
  · split <;> rfl
  · rfl

/-- Records written that agree but for the last forwarded value leave the same table. -/
theorem sameActuators_written (s : State) (i : Nat) {a b : Actuator} (h : b.lessLast = a.lessLast) :
    SameActuators (s.setActuator i (some a)) (s.setActuator i (some b)) := by
  rw [sameActuators_iff, State.setActuator_actuators, State.setActuator_actuators, List.map_set, List.map_set,
    Option.map_some, Option.map_some, h]

/-! ### The request -/

section
variable {args : List Byte} {s : State} {a : Actuator} (within : indexArg args ≤ 47)
  (coded : Actuator.ofRecord? (recordArg args) = some a) (fits : s.actuatorFits a = true)
  (number : s.otherEntry (indexArg args) (·.number == a.number) = false)
  (turbine : a.role = .turbineLoad → s.otherEntry (indexArg args) (·.role == .turbineLoad) = false)
  (bindings : s.breaksBinding (indexArg args) a = false)
include within coded fits number turbine bindings

/-- A record that passes the tests of R79 is written unless its entry is the ram of a stroke in flight. -/
theorem writeActuatorBody_of_tests : writeActuatorBody args s =
    if s.ramInFlight (indexArg args) then answer .refusedBusy s
    else
      let old := s.actuator (indexArg args)
      answer .done (actuatorWriteBounds (indexArg args) old
        (ramWritten (indexArg args) old (a.keeping old) (s.setActuator (indexArg args) (some (a.keeping old))))) := by
  have single : ¬ (a.role = .turbineLoad ∧ s.otherEntry (indexArg args) (·.role == .turbineLoad) = true) :=
    fun ⟨role, other⟩ => absurd ((turbine role).symm.trans other) (by decide)
  unfold writeActuatorBody
  dsimp only
  rw [if_neg (Nat.not_lt.mpr within), coded]
  dsimp only
  rw [if_neg (by simp [fits]), if_neg (by simp [number]), if_neg single, if_neg (by simp [bindings])]

theorem writeActuatorBody_busy (busy : s.ramInFlight (indexArg args) = true) :
    writeActuatorBody args s = answer .refusedBusy s :=
  (writeActuatorBody_of_tests within coded fits number turbine bindings).trans (if_pos busy)

/-- A record written replaces its entry, but for the last forwarded value, and reaches only the plant's units. -/
theorem writeActuatorBody_done (free : s.ramInFlight (indexArg args) = false) :
    ∃ u, writeActuatorBody args s = answer .done u ∧ u.lessPlant = s.lessPlant ∧
      SameActuators (s.setActuator (indexArg args) (some a)) u := by
  have follows {P : State → Prop} (h : Plain P)
      (hs : P (s.setActuator (indexArg args) (some (a.keeping (s.actuator (indexArg args)))))) :=
    h.actuatorWriteBounds (indexArg args) (s.actuator (indexArg args)) (h.ramWritten (indexArg args)
      (s.actuator (indexArg args)) (a.keeping (s.actuator (indexArg args))) hs)
  refine ⟨_, (writeActuatorBody_of_tests within coded fits number turbine bindings).trans (if_neg (by simp [free])), ?_, ?_⟩
  · exact follows (calm_lessPlant s).toPlain rfl
  · exact follows (calm_sameActuators _).toPlain (sameActuators_written s _ (lessLast_keeping a _))

end

end Sys2Proof.Machine
end

section
/-! The statement on writes of actuator entries. -/

namespace Sys2Proof.Machine

/-- Settles O35: the tests passed, the entry is refused for a stroke in flight, or replaced. -/
theorem actuatorWriteEffect : Obligations.ActuatorWriteEffect := by
  intro r rest a s ready length within _ coded fits number turbine bindings
  have body := sized_of_length (body := writeActuatorBody) (s.beginExecution rest) length
  refine ⟨fun busy => ?_, fun free => ?_⟩
  · exact congrArg Host.Outcome.next (serve_refused ready (body.trans
      (writeActuatorBody_busy (s := s.beginExecution rest) within coded fits number turbine bindings busy)))
  · obtain ⟨u, done, left, placed⟩ :=
      writeActuatorBody_done (s := s.beginExecution rest) within coded fits number turbine bindings free
    have requests : u.requests = rest := congrArg (fun t => t.requests) left
    have own : u.ownStation = s.ownStation := congrArg (fun t => t.ownStation) left
    obtain ⟨answered, kept⟩ := serve_answered ready (body.trans done) requests own
    refine ⟨_, rfl, answered, ?_, ?_, ?_, ?_⟩
    · have actuators : (serve .writeEntryActuators (sized 24 writeActuatorBody) s).actuators = u.actuators :=
        congrArg (fun t => t.actuators) kept
      unfold SameActuators
      rw [actuators]
      exact placed
    · exact (congrArg (fun t => t.channels) kept).trans (congrArg (fun t => t.channels) left)
    · exact (congrArg (fun t => t.lineBinding) kept).trans (congrArg (fun t => t.lineBinding) left)
    · exact (congrArg (fun t => t.limits) kept).trans (congrArg (fun t => t.limits) left)

end Sys2Proof.Machine
end

section
/-! SUPPORT. A line's feed admission unit under the operations upon holds and strokes (R100, R101, R106, R108). -/

namespace Sys2Proof.Machine

/-! ### Aborts and releases, and the other line's unit -/

theorem inStroke_iff {s : State} {l : Line} :
    s.inStroke l = true ↔ ∃ ram target, (s.feedOf l).engine = .inStroke ram target := by
  unfold State.inStroke
  cases (s.feedOf l).engine <;> simp

/-- A stroke in flight on a line is brought to SETTLING; nothing else is in any feed admission unit (R106). -/
theorem feedOf_abortStroke (l m : Line) (s : State) :
    (abortStroke l s).feedOf m = if m = l ∧ s.inStroke l = true then (s.feedOf l).toSettling else s.feedOf m := by
  unfold abortStroke
  split
  · rename_i ram target flying
    rw [State.feedOf_modFeed, feedOf_originate, feedOf_originate, inStroke_iff.mpr ⟨ram, target, flying⟩]
    simp
  · rename_i other
    have idle : ¬ s.inStroke l = true := fun h => by
      obtain ⟨ram, target, flying⟩ := inStroke_iff.mp h
      exact other ram target flying
    rw [if_neg fun h => idle h.2]

theorem inStroke_abortStroke (l : Line) (s : State) : (abortStroke l s).inStroke l = false := by
  refine Bool.eq_false_iff.mpr fun h => ?_
  obtain ⟨ram, target, flying⟩ := inStroke_iff.mp h
  rw [feedOf_abortStroke] at flying
  split at flying
  · cases flying
  · rename_i idle
    exact idle ⟨rfl, inStroke_iff.mpr ⟨ram, target, flying⟩⟩

theorem feedOf_modFeed_ne {l m : Line} (h : m ≠ l) (g : Feed → Feed) (s : State) :
    (s.modFeed l g).feedOf m = s.feedOf m := by
  rw [State.feedOf_modFeed, if_neg h]

theorem feedOf_abortStroke_ne {l m : Line} (h : m ≠ l) (s : State) : (abortStroke l s).feedOf m = s.feedOf m := by
  rw [feedOf_abortStroke, if_neg fun hl => h hl.1]

theorem feedOf_addHold_ne {l m : Line} (h : m ≠ l) (c : HoldCause) (s : State) :
    (addHold l c s).feedOf m = s.feedOf m := by
  unfold addHold
  split
  · rfl
  · rw [feedOf_abortStroke_ne h, feedOf_modFeed_ne h]

/-- What a release check does: nothing, or the release of a stroke on a line without holds (R100, R101). -/
theorem releaseCheck_outcomes (l : Line) (s : State) : releaseCheck l s = s ∨
    (s.feedOf l).holds.isEmpty = true ∧ ∃ c length charge ram next rest, releaseCheck l s =
      originateCommand .routine c (s.modFeed l fun f => f.released length charge ram next rest) := by
  cases may : s.mayRelease l with
  | false => exact .inl (releaseCheck_of_not_mayRelease may)
  | true =>
    obtain ⟨head, rest, -, queued, unheld, -, -⟩ := mayRelease_iff.mp may
    have released : releaseCheck l s = release l s := if_pos may
    cases sought : s.seekRam l (s.feedOf l).rotation with
    | none =>
      refine .inl (released.trans ?_)
      unfold release
      rw [queued, sought]
    | some k =>
      obtain ⟨ram, listed, serves⟩ := seekRam_inService sought
      obtain ⟨a, record, -⟩ := actuator_of_inService serves
      exact .inr ⟨unheld, _, _, _, _, _, _, released.trans (release_eq queued sought listed record)⟩

theorem feedOf_releaseCheck_ne {l m : Line} (h : m ≠ l) (s : State) : (releaseCheck l s).feedOf m = s.feedOf m := by
  rcases releaseCheck_outcomes l s with none | ⟨-, c, length, charge, ram, next, rest, released⟩
  · rw [none]
  · rw [released, feedOf_originateCommand, feedOf_modFeed_ne h]

theorem reasons_releaseCheck (l m : Line) (s : State) :
    ((releaseCheck l s).feedOf m).reasons = (s.feedOf m).reasons := by
  rcases releaseCheck_outcomes l s with none | ⟨-, c, length, charge, ram, next, rest, released⟩
  · rw [none]
  · rw [released, feedOf_originateCommand, State.feedOf_modFeed]
    split
    · rename_i hm
      rw [hm]
      rfl
    · rfl

theorem feedOf_removeHold_ne {l m : Line} (h : m ≠ l) (c : HoldCause) (s : State) :
    (removeHold l c s).feedOf m = s.feedOf m := by
  unfold removeHold
  split
  · rw [feedOf_releaseCheck_ne h, feedOf_modFeed_ne h]
  · rfl

theorem feedOf_ramChange_ne {l m : Line} (h : m ≠ l) (s : State) : (ramChange l s).feedOf m = s.feedOf m := by
  unfold ramChange evalNoRam
  rw [feedOf_releaseCheck_ne h]
  split
  · exact feedOf_removeHold_ne h .noRam s
  · exact feedOf_addHold_ne h .noRam s

/-! ### EMISSION reasons -/

theorem reasons_modFeed (l m : Line) (s : State) {g : Feed → Feed} (hg : (g (s.feedOf l)).reasons = (s.feedOf l).reasons) :
    ((s.modFeed l g).feedOf m).reasons = (s.feedOf m).reasons := by
  rw [State.feedOf_modFeed]
  split
  · rename_i hm
    rw [hg, hm]
  · rfl

theorem reasons_addHold (l m : Line) (c : HoldCause) (s : State) :
    ((addHold l c s).feedOf m).reasons = (s.feedOf m).reasons := by
  unfold addHold
  split
  · rfl
  · rw [feedOf_abortStroke]
    split
    · rename_i hm
      rw [hm.1]
      exact reasons_modFeed l l s rfl
    · exact reasons_modFeed l m s rfl

theorem reasons_removeHold (l m : Line) (c : HoldCause) (s : State) :
    ((removeHold l c s).feedOf m).reasons = (s.feedOf m).reasons := by
  unfold removeHold
  split
  · rw [reasons_releaseCheck]
    exact reasons_modFeed l m s rfl
  · rfl

end Sys2Proof.Machine
end

section
/-! SUPPORT. What the safety statements on holds have in common: properties that do not turn on the trip causes, on the sink
state or on the limit table, and the posts, averager closes and resets under them. -/

namespace Sys2Proof.Machine

/-! ### Trips -/

/-- A property that does not turn on the trip cause sets, and that TRIPPED added or removed keeps. -/
structure TripBlind (P : State → Prop) : Prop where
  causes : ∀ {s t} {c : Line → TripSet}, P s → t.ground = { s.ground with causes := c } → P t
  added : ∀ {s} l, P s → P (addHold l .tripped s)
  removed : ∀ {s} l, P s → P (removeHold l .tripped s)

namespace TripBlind
variable {P : State → Prop} (h : TripBlind P) {s : State}
include h

theorem ground {t : State} (hs : P s) (hg : t.ground = s.ground) : P t := h.causes (c := s.ground.causes) hs hg

theorem posts {l : Line} {tripped : Bool} {act : State → State} (ha : act ∈ tripPosts l tripped) (hs : P s) :
    P (act s) := by
  unfold tripPosts at ha
  simp only [List.mem_cons, List.not_mem_nil, or_false] at ha
  rcases ha with rfl | rfl
  · split
    · exact h.added l hs
    · exact h.removed l hs
  · exact h.ground hs (ground_tripCondition l tripped s)

theorem inAnyOrder {acts : List (State → State)} (ha : ∀ act ∈ acts, ∃ l tripped, act ∈ tripPosts l tripped) (hs : P s) :
    P (inAnyOrder acts s) :=
  inAnyOrder_invariant P (fun t n ht => h.ground ht (ground_choose t n)) acts
    (fun act hact t ht => by
      obtain ⟨l, tripped, hl⟩ := ha act hact
      exact h.posts hl ht) s hs

theorem addTripCause (l : Line) (c : TripCause) (hs : P s) : P (addTripCause l c s) := by
  have recorded := h.causes hs (ground_recordTrip l c s)
  exact keeps_ite (h.inAnyOrder (fun _ ha => ⟨l, true, ha⟩) recorded) recorded

theorem tripReset (l : Line) (hs : P s) : P (tripReset l s) := by
  have removed := h.causes hs (ground_modTrip s l fun t => { t with causes := s.tripRemaining l })
  exact keeps_ite (h.inAnyOrder (fun _ ha => ⟨l, false, ha⟩) removed) removed

theorem scrub (hs : P s) : P (scrub s) := by
  by_cases agrees : s.computedCode = s.limits.checkCode
  · rwa [scrub_of_agreement agrees]
  · rw [scrub_of_mismatch agrees]
    refine h.inAnyOrder (fun act ha => ?_) (h.causes hs (ground_faultRecorded s))
    obtain ⟨l, hl⟩ := scrubPosts_trip ha
    exact ⟨l, true, hl⟩

end TripBlind

/-! ### Sink state and averager closes -/

/-- A property that does not turn on the sink state, and that each line's sink change keeps. -/
theorem deriveSink_holds {P : State → Prop} (ground : ∀ {s t : State}, P s → t.ground = s.ground → P t)
    (sink : ∀ {s : State} x, P s → P (s.modDispatch fun d => { d with sink := x }))
    (changed : ∀ {s} l, P s → P (sinkChange l s)) {s : State} (hs : P s) : P (deriveSink s) := by
  refine keeps_ite hs (inAnyOrder_invariant P (fun t n ht => ground ht (ground_choose t n)) _ (fun act hact t ht => ?_) _
    (sink s.sinkFromStatus hs))
  simp only [List.mem_cons, List.not_mem_nil, or_false] at hact
  rcases hact with rfl | rfl
  · exact changed .one ht
  · exact changed .two ht

/-- The half-hour closes of a line, by their parts: `Q` holds once the minutes are raised, and `P` again once BUDGET is
judged (R126, R127). -/
theorem halfHourCloses_holds {P Q : State → Prop} {l : Line} (ground : ∀ {s t : State}, P s → t.ground = s.ground → P t)
    (raised : ∀ {s : State} (n : Averager → Nat), P s → Q (s.modAverager l fun a => { a with minutes := n a }))
    (capped : ∀ {s}, Q s → Q (postReason l .episodeCap s)) (judged : ∀ {s}, Q s → P (postBudget l s)) (b : Nat)
    {s : State} (hs : P s) : P (halfHourCloses l b s) := by
  have closed : P (inTurn Pollutant.all (halfHourClose l b) s) :=
    inTurn_holds (fun p t ht => ground ht (ground_halfHourClose l b p t)) hs
  have counted := raised (fun a => Nat.min 65535 (a.minutes + 30)) closed
  exact keeps_ite closed (judged (keeps_ite (capped counted) counted))

/-! ### The limit table -/

/-- A property that does not turn on the limit table: the four requests upon it keep it. -/
theorem Guarded.tableAndResets {P : State → Prop} (h : Guarded P) (limits : ∀ {s : State} g, P s → P (s.modLimits g))
    (powerOn : ∀ straps s, P (powerOn straps s)) (line : ∀ straps s, P s → P (lineBase straps s))
    (soft : ∀ s, P s → P (softBase s)) : TableAndResets P where
  powerOn := powerOn
  line := line
  soft := soft
  setLimit {s} index v hs := by
    rcases setLimit_outcomes index v s with he | ⟨i, -, -, he⟩ <;> rw [he]
    · exact hs
    · exact h.writeLimit (limits _ hs)
  setOverride {s} index v hs := by
    rcases setOverride_outcomes index v s with he | ⟨i, -, -, he⟩ <;> rw [he]
    · exact hs
    · exact h.writeLimit (limits _ hs)
  clearOverride {s} index hs := by
    rcases clearOverride_outcomes index s with he | ⟨i, -, he⟩ <;> rw [he]
    · exact hs
    · exact h.writeLimit (limits _ hs)
  freeze {s} hs := by
    rcases freeze_outcomes s with he | ⟨-, he⟩ <;> rw [he]
    · exact hs
    · exact limits _ hs

end Sys2Proof.Machine
end

section
/-! SUPPORT. TRIPPED and NO_SINK held while their conditions stand (R110, R112). -/

namespace Sys2Proof.Machine

/-! ### Work that leaves a cause where it is held -/

/-- `t` is `s` after work of the feed admission units that removes a cause from no line. -/
structure HoldStays (k : HoldCause) (s t : State) : Prop where
  rest : t.lessFeed = s.lessFeed
  held : ∀ l, s.Held l k → t.Held l k

section
variable {k : HoldCause} {s t u : State}

theorem HoldStays.trans (h : HoldStays k s t) (h' : HoldStays k t u) : HoldStays k s u :=
  ⟨h'.rest.trans h.rest, fun l hl => h'.held l (h.held l hl)⟩

theorem holdStays_of_holds (rest : t.lessFeed = s.lessFeed) (holds : ∀ l, (t.feedOf l).holds = (s.feedOf l).holds) :
    HoldStays k s t :=
  ⟨rest, fun l hl => by
    unfold State.Held
    rwa [holds]⟩

theorem holds_modFeed (l m : Line) {g : Feed → Feed} (hg : (g (s.feedOf l)).holds = (s.feedOf l).holds) :
    ((s.modFeed l g).feedOf m).holds = (s.feedOf m).holds := by
  rw [State.feedOf_modFeed]
  split
  · rename_i hm
    rw [hg, hm]
  · rfl

theorem holdStays_modFeed (l : Line) {g : Feed → Feed} (hg : (g (s.feedOf l)).holds = (s.feedOf l).holds) :
    HoldStays k s (s.modFeed l g) :=
  holdStays_of_holds rfl fun m => holds_modFeed l m hg

theorem holdStays_releaseCheck (l : Line) : HoldStays k s (releaseCheck l s) :=
  holdStays_of_holds (lessFeed_releaseCheck l s) fun m => holds_releaseCheck l m s

theorem holdStays_addHold (l : Line) (c : HoldCause) : HoldStays k s (addHold l c s) :=
  ⟨lessFeed_addHold l c s, fun m hm => (held_addHold l c s).2 m k hm⟩

theorem holdStays_removeHold (l : Line) {c : HoldCause} (hc : k ≠ c) : HoldStays k s (removeHold l c s) :=
  ⟨lessFeed_removeHold l c s, fun m hm => by
    unfold State.Held
    rwa [get_removeHold, if_neg fun h => hc h.2]⟩

theorem holdStays_postReason (l : Line) (r : EmissionReason) : HoldStays k s (postReason l r s) := by
  have added : HoldStays k s (s.modFeed l fun f => { f with reasons := f.reasons.add r }) := holdStays_modFeed l rfl
  unfold postReason
  dsimp only
  split
  · exact (added.trans (holdStays_addHold l .emission)).trans (holdStays_of_holds rfl fun _ => rfl)
  · exact added

theorem holdStays_clearEmission (l : Line) (hk : k ≠ .emission) : HoldStays k s (clearEmission l s).after := by
  have stays : HoldStays k s s := ⟨rfl, fun _ h => h⟩
  unfold clearEmission
  split
  · exact stays
  · split
    · exact stays
    · exact (holdStays_modFeed l rfl).trans (holdStays_removeHold l hk)

end

/-- A property that rests on a cause where it is held: it turns on no other work of the feed admission units, and not on the
averagers. -/
structure RestsOn (k : HoldCause) (P : State → Prop) : Prop where
  stays : ∀ {s t}, P s → HoldStays k s t → P t
  ground : ∀ {s t : State}, P s → t.ground = s.ground → P t
  averager : ∀ {s : State} l g, P s → P (s.modAverager l g)

/-- TRIPPED and NO_SINK go by the changes of what they follow alone. -/
theorem RestsOn.guarded {k : HoldCause} {P : State → Prop} (h : RestsOn k P) (hk : k = .tripped ∨ k = .noSink)
    (deriveSink : ∀ {s}, P s → P (deriveSink s)) (addTripCause : ∀ {s} l c, P s → P (addTripCause l c s))
    (tripReset : ∀ {s} l, P s → P (tripReset l s)) (scrub : ∀ {s}, P s → P (scrub s)) : Guarded P where
  ground := h.ground
  eased he hs := h.stays hs (holdStays_modFeed _ he.holds)
  releaseCheck l hs := h.stays hs (holdStays_releaseCheck l)
  addHold l _ _ hs := h.stays hs (holdStays_addHold l _)
  removeHold l c hc hs := h.stays hs (holdStays_removeHold l (by rintro rfl; rcases hk with rfl | rfl <;> simp at hc))
  deriveSink := deriveSink
  postReason l r hs := h.stays hs (holdStays_postReason l r)
  clearEmission l hs := h.stays hs (holdStays_clearEmission l (by rintro rfl; simp at hk))
  halfHourCloses l b hs := halfHourCloses_holds (P := P) (Q := P) h.ground (fun _ hs => h.averager l _ hs)
    (fun hs => h.stays hs (holdStays_postReason l _)) (fun hs => keeps_ite (h.stays hs (holdStays_postReason l _)) hs) b hs
  newYear l hs := h.averager l _ hs
  addTripCause := addTripCause
  tripReset := tripReset
  scrub := scrub

/-! ### TRIPPED (R110) -/

theorem restsOn_tripsHoldFeed : RestsOn .tripped State.tripsHoldFeed where
  stays hs ht := hs.mono (fun l hl => tripOf_of_lessFeed ht.rest l ▸ hl) fun l _ => ht.held l
  ground hs hg := hs.of_ground hg
  averager _ _ hs := hs

/-- Trips recorded and posted: each line with a cause was held before, or its post is among them. -/
theorem tripsHoldFeed_posts {acts : List (State → State)} (h : ∀ act ∈ acts, ∃ l, act ∈ tripPosts l true) {s : State}
    (ht : ∀ l, (s.tripOf l).causes.isEmpty = false → s.Held l .tripped ∨ addHold l .tripped ∈ acts) :
    (inAnyOrder acts s).tripsHoldFeed := by
  have posted := posted_posts h s
  intro l hl
  rw [posted.causes] at hl
  rcases ht l hl with held | owed
  · exact posted.held l _ held
  · exact held_posts h s owed

namespace State.tripsHoldFeed
variable {s : State} (h : s.tripsHoldFeed)
include h

theorem sinkChange (l : Line) : (Machine.sinkChange l s).tripsHoldFeed := by
  refine keeps_ite (restsOn_tripsHoldFeed.stays h (holdStays_addHold l .noSink)) ?_
  exact restsOn_tripsHoldFeed.stays h ((holdStays_removeHold l (by decide)).trans (holdStays_releaseCheck l))

/-- A line other than the one whose cause is recorded, or one that was tripped, is held as it was. -/
theorem held_recordTrip (l m : Line) (c : TripCause) (hm : m = l → (s.tripOf l).causes.isEmpty = false)
    (hc : ((recordTrip l c s).tripOf m).causes.isEmpty = false) : (recordTrip l c s).Held m .tripped := by
  have tripped : (s.tripOf m).causes.isEmpty = false := by
    by_cases hml : m = l
    · exact hml ▸ hm hml
    · rwa [causes_recordTrip, if_neg hml] at hc
  unfold Held
  rw [feedOf_recordTrip]
  exact h m tripped

theorem addTripCause (l : Line) (c : TripCause) : (Machine.addTripCause l c s).tripsHoldFeed := by
  unfold Machine.addTripCause
  split
  · refine tripsHoldFeed_posts (fun _ ha => ⟨l, ha⟩) fun m hm => ?_
    by_cases hml : m = l
    · exact .inr (hml ▸ mem_tripPosts m)
    · exact .inl (h.held_recordTrip l m c (fun he => absurd he hml) hm)
  · rename_i wasTripped
    exact fun m => h.held_recordTrip l m c fun _ => Bool.eq_false_iff.mpr wasTripped

/-- The scrub's mismatch posts TRIPPED at each line that was not tripped (R74). -/
theorem scrub : (Machine.scrub s).tripsHoldFeed := by
  by_cases agrees : s.computedCode = s.limits.checkCode
  · rwa [scrub_of_agreement agrees]
  · rw [scrub_of_mismatch agrees]
    refine tripsHoldFeed_posts (fun _ => scrubPosts_trip) fun l _ => ?_
    cases hl : (s.tripOf l).causes.isEmpty with
    | true => exact .inr (mem_scrubPosts hl)
    | false =>
      have feed : (faultRecorded s).feedOf l = s.feedOf l := congrFun (congrArg Ground.feed (ground_faultRecorded s)) l
      refine .inl ?_
      unfold Held
      rw [feed]
      exact h l hl

/-- TRIPPED is removed where no trip cause is left (R110). -/
theorem removeTripped {l : Line} (empty : (s.tripOf l).causes.isEmpty = true) :
    (removeHold l .tripped s).tripsHoldFeed := by
  have trip := tripOf_of_lessFeed (lessFeed_removeHold l .tripped s)
  refine h.mono (fun m hm => trip m ▸ hm) fun m hm held => ?_
  have other : m ≠ l := by
    rintro rfl
    rw [trip, empty] at hm
    cases hm
  unfold Held at held ⊢
  rwa [get_removeHold, if_neg fun he => other he.1]

/-- The causes that a TRIP_RESET leaves were there before; TRIPPED goes where it leaves none (R171). -/
theorem tripReset (l : Line) : (Machine.tripReset l s).tripsHoldFeed := by
  have written (m : Line) : ((s.modTrip l fun t => { t with causes := s.tripRemaining l }).tripOf m).causes =
      if m = l then s.tripRemaining l else (s.tripOf m).causes :=
    congrFun (congrArg Ground.causes (ground_modTrip s l _)) m
  have removed : (s.modTrip l fun t => { t with causes := s.tripRemaining l }).tripsHoldFeed := by
    refine h.mono (fun m hm => ?_) fun _ _ hk => hk
    rw [written] at hm
    split at hm
    · rename_i hml
      rw [hml]
      simp only [tripRemaining, TripSet.isEmpty, Bool.not_eq_false', Bool.or_eq_true, Bool.and_eq_true] at hm ⊢
      tauto
    · exact hm
  unfold Machine.tripReset
  dsimp only
  split
  · rename_i emptied
    have empty : ((s.modTrip l fun t => { t with causes := s.tripRemaining l }).tripOf l).causes.isEmpty = true := by
      rw [written, if_pos rfl]
      simp only [Bool.and_eq_true] at emptied
      exact emptied.2
    refine (inAnyOrder_invariant (fun t => t.tripsHoldFeed ∧ (t.tripOf l).causes.isEmpty = true)
      (fun t n ⟨ht, he⟩ => ⟨ht.of_ground (ground_choose t n), causes_of_ground (ground_choose t n) l ▸ he⟩) _
      (fun act hact t ⟨ht, he⟩ => ?_) _ ⟨removed, empty⟩).1
    unfold tripPosts at hact
    simp only [List.mem_cons, List.not_mem_nil, or_false] at hact
    rcases hact with rfl | rfl
    · exact ⟨ht.removeTripped he, (tripOf_of_lessFeed (lessFeed_removeHold l .tripped t) l).symm ▸ he⟩
    · exact ⟨ht.of_ground (ground_tripCondition l false t), causes_of_ground (ground_tripCondition l false t) l ▸ he⟩
  · exact removed

end State.tripsHoldFeed

theorem guarded_tripsHoldFeed : Guarded State.tripsHoldFeed :=
  restsOn_tripsHoldFeed.guarded (.inl rfl)
    (fun h => deriveSink_holds (fun hs hg => hs.of_ground hg) (fun _ hs => hs) (fun l hs => hs.sinkChange l) h)
    (fun l c h => h.addTripCause l c) (fun l h => h.tripReset l) fun h => h.scrub

theorem tableAndResets_tripsHoldFeed : TableAndResets State.tripsHoldFeed :=
  guarded_tripsHoldFeed.tableAndResets (fun _ h => h) (fun _ _ l _ => by cases l <;> rfl)
    (fun _ _ _ l _ => by cases l <;> rfl) fun _ _ l _ => by cases l <;> rfl

/-! ### NO_SINK (R112) -/

theorem State.noSinkHoldsFeed.mono {s t : State} (h : s.noSinkHoldsFeed) (sink : t.dispatch.sink = s.dispatch.sink)
    (held : ∀ l, s.Held l .noSink → t.Held l .noSink) : t.noSinkHoldsFeed :=
  fun ht l => held l (h (sink ▸ ht) l)

theorem sink_of_lessFeed {s t : State} (h : t.lessFeed = s.lessFeed) : t.dispatch.sink = s.dispatch.sink :=
  read_of_erased State.lessFeed (read := fun s => s.dispatch.sink) (fun _ => rfl) h

theorem tripBlind_noSinkHoldsFeed : TripBlind State.noSinkHoldsFeed where
  causes {s t _} hs hg := hs.mono (congrArg Ground.sink hg) fun l hl => by
    have feed : t.feedOf l = s.feedOf l := congrFun (congrArg Ground.feed hg) l
    unfold State.Held at hl ⊢
    rwa [feed]
  added l hs := hs.mono (sink_of_lessFeed (lessFeed_addHold l .tripped _)) (holdStays_addHold l .tripped).held
  removed l hs :=
    hs.mono (sink_of_lessFeed (lessFeed_removeHold l .tripped _)) (holdStays_removeHold l (by decide)).held

theorem restsOn_noSinkHoldsFeed : RestsOn .noSink State.noSinkHoldsFeed where
  stays hs ht := hs.mono (sink_of_lessFeed ht.rest) ht.held
  ground hs hg := tripBlind_noSinkHoldsFeed.ground hs hg
  averager _ _ hs := hs

/-- Both lines take the sink change: with the sink state NONE each of them holds NO_SINK (R112). -/
theorem noSinkHoldsFeed_deriveSink {s : State} (h : s.noSinkHoldsFeed) : (deriveSink s).noSinkHoldsFeed := by
  refine keeps_ite h fun none l => ?_
  have choice (t : State) (n : Nat) : (t.choose n).2.ground = t.ground := ground_choose t n
  have member {act : State → State} (hact : act ∈ [sinkChange .one, sinkChange .two]) : ∃ m, act = sinkChange m := by
    simp only [List.mem_cons, List.not_mem_nil, or_false] at hact
    exact hact.elim (fun h => ⟨_, h⟩) fun h => ⟨_, h⟩
  have sink (m : Line) (t : State) : (sinkChange m t).dispatch.sink = t.dispatch.sink :=
    sink_of_lessFeed (lessFeed_sinkChange m t)
  have kept : (inAnyOrder [sinkChange .one, sinkChange .two]
      (s.modDispatch fun d => { d with sink := s.sinkFromStatus })).dispatch.sink = s.sinkFromStatus :=
    inAnyOrder_keeps (fun t => t.dispatch.sink) (fun t n => congrArg Ground.sink (choice t n)) _
      (fun act hact t => by
        obtain ⟨m, rfl⟩ := member hact
        exact sink m t) _
  refine inAnyOrder_establishes (I := fun t => t.dispatch.sink = .none) (D := fun t => (t.feedOf l).holds.noSink = true)
    (fun t n ht => (congrArg Ground.sink (choice t n)).trans ht)
    (fun t n _ ht => by rwa [feedOf_of_ground (choice t n)]) (fun act hact t ht => ?_) (fun act hact t ht held => ?_)
    (act := sinkChange l) (by cases l <;> simp) (fun t ht => ?_) (kept.symm.trans none)
  · obtain ⟨m, rfl⟩ := member hact
    exact (sink m t).trans ht
  · obtain ⟨m, rfl⟩ := member hact
    rw [noSink_sinkChange]
    split
    · exact decide_eq_true ht
    · exact held
  · rw [noSink_sinkChange, if_pos rfl]
    exact decide_eq_true ht

theorem guarded_noSinkHoldsFeed : Guarded State.noSinkHoldsFeed :=
  restsOn_noSinkHoldsFeed.guarded (.inr rfl) noSinkHoldsFeed_deriveSink
    (fun l c h => tripBlind_noSinkHoldsFeed.addTripCause l c h) (fun l h => tripBlind_noSinkHoldsFeed.tripReset l h)
    fun h => tripBlind_noSinkHoldsFeed.scrub h

theorem tableAndResets_noSinkHoldsFeed : TableAndResets State.noSinkHoldsFeed :=
  guarded_noSinkHoldsFeed.tableAndResets (fun _ h => h) (fun _ _ _ l => by cases l <;> rfl)
    (fun _ _ _ _ l => by cases l <;> rfl) fun _ h none l => by cases l with
      | one => exact h none .one
      | two => exact h none .two

/-- Settles O52: TRIPPED goes only where a TRIP_RESET leaves no cause, NO_SINK only where the sink state is no longer NONE. -/
theorem holdsFollowConditionsAlways : Obligations.HoldsFollowConditionsAlways := fun _ _ hx =>
  ⟨fun h => guarded_tripsHoldFeed.step tableAndResets_tripsHoldFeed h hx,
    fun h => guarded_noSinkHoldsFeed.step tableAndResets_noSinkHoldsFeed h hx⟩

end Sys2Proof.Machine
end

section
/-! SUPPORT. No stroke in flight on a held line (R100, R106). -/

namespace Sys2Proof.Machine

theorem HoldSet.get_of_isEmpty {x : HoldSet} (h : x.isEmpty = true) (c : HoldCause) : x.get c = false := by
  simp only [HoldSet.isEmpty, Bool.not_eq_true', Bool.or_eq_false_iff] at h
  obtain ⟨⟨⟨⟨⟨manual, tripped⟩, furnaceCold⟩, noSink⟩, emission⟩, noRam⟩ := h
  cases c <;> assumption

theorem inStroke_of_feedOf {s t : State} {l : Line} (h : t.feedOf l = s.feedOf l) : t.inStroke l = s.inStroke l := by
  unfold State.inStroke
  rw [h]

namespace State.strokesUnheld
variable {s : State} (h : s.strokesUnheld)
include h

/-- One line's unit has changed, and has no stroke in flight while it is held. -/
theorem of_line {t : State} (l : Line) (other : ∀ m, m ≠ l → t.feedOf m = s.feedOf m)
    (own : t.inStroke l = true → (t.feedOf l).holds.isEmpty = true) : t.strokesUnheld := by
  intro m flying
  by_cases hm : m = l
  · subst hm
    exact own flying
  · rw [inStroke_of_feedOf (other m hm)] at flying
    rw [other m hm]
    exact h m flying

theorem of_feedOf {t : State} (hf : ∀ l, t.feedOf l = s.feedOf l) : t.strokesUnheld :=
  h.of_line .one (fun m _ => hf m) fun flying => by
    rw [inStroke_of_feedOf (hf .one)] at flying
    rw [hf]
    exact h .one flying

theorem eased {l : Line} {g : Feed → Feed} (he : (s.feedOf l).Eased (g (s.feedOf l))) :
    (s.modFeed l g).strokesUnheld := by
  refine h.of_line l (fun m hm => feedOf_modFeed_ne hm g s) fun flying => ?_
  obtain ⟨ram, target, engine⟩ := inStroke_iff.mp flying
  rw [State.feedOf_modFeed_self] at engine ⊢
  rw [he.holds]
  exact h l (inStroke_iff.mpr ⟨ram, target, he.engine ram target engine⟩)

/-- A stroke is released into an empty hold set (R100). -/
theorem releaseCheck (l : Line) : (Machine.releaseCheck l s).strokesUnheld := by
  refine h.of_line l (fun m hm => feedOf_releaseCheck_ne hm s) fun flying => ?_
  rw [holds_releaseCheck]
  rcases releaseCheck_outcomes l s with none | ⟨unheld, -⟩
  · rw [none] at flying
    exact h l flying
  · exact unheld

/-- An addition aborts the stroke in flight (R106). -/
theorem addHold (l : Line) (c : HoldCause) : (Machine.addHold l c s).strokesUnheld := by
  cases held : (s.feedOf l).holds.get c with
  | true => rwa [addHold_of_held held]
  | false =>
    refine h.of_line l (fun m hm => feedOf_addHold_ne hm c s) fun flying => ?_
    rw [Machine.addHold, if_neg (by simp [held]), inStroke_abortStroke] at flying
    cases flying

/-- A line with a cause to remove has no stroke in flight; the check that follows releases into an empty set. -/
theorem removeHold (l : Line) (c : HoldCause) : (Machine.removeHold l c s).strokesUnheld := by
  cases held : (s.feedOf l).holds.get c with
  | false => rwa [removeHold_of_absent held]
  | true =>
    have removed : (s.modFeed l fun f => { f with holds := f.holds.set c false }).strokesUnheld := by
      refine h.of_line l (fun m hm => feedOf_modFeed_ne hm _ s) fun flying => ?_
      obtain ⟨ram, target, engine⟩ := inStroke_iff.mp flying
      rw [State.feedOf_modFeed_self] at engine
      have unheld := HoldSet.get_of_isEmpty (h l (inStroke_iff.mpr ⟨ram, target, engine⟩)) c
      rw [held] at unheld
      cases unheld
    rw [Machine.removeHold, if_pos held]
    exact removed.releaseCheck l

theorem sinkChange (l : Line) : (Machine.sinkChange l s).strokesUnheld :=
  keeps_ite (h.addHold l .noSink) ((h.removeHold l .noSink).releaseCheck l)

theorem reasons (l : Line) (g : ReasonSet → ReasonSet) :
    (s.modFeed l fun f => { f with reasons := g f.reasons }).strokesUnheld := by
  refine h.of_line l (fun m hm => feedOf_modFeed_ne hm _ s) fun flying => ?_
  obtain ⟨ram, target, engine⟩ := inStroke_iff.mp flying
  rw [State.feedOf_modFeed_self] at engine ⊢
  exact h l (inStroke_iff.mpr ⟨ram, target, engine⟩)

theorem postReason (l : Line) (r : EmissionReason) : (Machine.postReason l r s).strokesUnheld := by
  have added := h.reasons l fun x => x.add r
  exact keeps_ite ((added.addHold l .emission).of_feedOf fun _ => rfl) added

theorem clearEmission (l : Line) : (Machine.clearEmission l s).after.strokesUnheld := by
  unfold Machine.clearEmission
  split
  · exact h
  · split
    · exact h
    · exact (h.reasons l fun _ => ReasonSet.empty).removeHold l .emission

end State.strokesUnheld

theorem tripBlind_strokesUnheld : TripBlind State.strokesUnheld where
  causes hs hg := hs.of_feedOf fun l => congrFun (congrArg Ground.feed hg) l
  added l hs := hs.addHold l .tripped
  removed l hs := hs.removeHold l .tripped

theorem guarded_strokesUnheld : Guarded State.strokesUnheld where
  ground hs hg := hs.of_feedOf (feedOf_of_ground hg)
  eased he hs := hs.eased he
  releaseCheck l hs := hs.releaseCheck l
  addHold l _ _ hs := hs.addHold l _
  removeHold l _ _ hs := hs.removeHold l _
  deriveSink hs := deriveSink_holds (fun hs hg => hs.of_feedOf (feedOf_of_ground hg)) (fun _ hs => hs)
    (fun l hs => hs.sinkChange l) hs
  postReason l r hs := hs.postReason l r
  clearEmission l hs := hs.clearEmission l
  halfHourCloses l b hs := halfHourCloses_holds (Q := State.strokesUnheld)
    (fun hs hg => hs.of_feedOf (feedOf_of_ground hg)) (fun _ hs => hs) (fun hs => hs.postReason l _)
    (fun hs => keeps_ite (hs.postReason l _) hs) b hs
  newYear _ hs := hs
  addTripCause l c hs := tripBlind_strokesUnheld.addTripCause l c hs
  tripReset l hs := tripBlind_strokesUnheld.tripReset l hs
  scrub hs := tripBlind_strokesUnheld.scrub hs

/-- After every reset both stroke engines are READY (R118, R119). -/
theorem strokesUnheld_of_ready {s : State} (h : ∀ l, (s.feedOf l).engine = .ready) : s.strokesUnheld := fun l flying => by
  obtain ⟨ram, target, engine⟩ := inStroke_iff.mp flying
  rw [h] at engine
  cases engine

theorem tableAndResets_strokesUnheld : TableAndResets State.strokesUnheld :=
  guarded_strokesUnheld.tableAndResets (fun _ h => h)
    (fun _ _ => strokesUnheld_of_ready fun l => by cases l <;> rfl)
    (fun _ _ _ => strokesUnheld_of_ready fun l => by cases l <;> rfl)
    fun _ _ => strokesUnheld_of_ready fun l => by cases l <;> rfl

/-- Settles O54: a release finds the hold set empty, and an addition to it aborts the stroke in flight. -/
theorem strokesUnheldAlways : Obligations.StrokesUnheldAlways := fun _ _ h hx =>
  guarded_strokesUnheld.step tableAndResets_strokesUnheld h hx

end Sys2Proof.Machine
end

section
/-! SUPPORT. EMISSION held exactly while it has a reason, and whenever the minutes used are at or above the budget (R113,
R114). -/

namespace Sys2Proof.Machine

/-- EMISSION as its reasons have it, on every line; and held where the minutes are used up on the lines named, for within a
close, a write of BUDGET and a reset the other lines are still to be judged. -/
structure State.EmissionHeld (judged : Line → Prop) (s : State) : Prop where
  sized : s.limits.entries.length = 52
  reasoned : ∀ l, (s.feedOf l).holds.emission = !(s.feedOf l).reasons.isEmpty
  spent : ∀ l, judged l → s.spent l = true → (s.feedOf l).holds.emission = true

theorem emissionHeld_iff {s : State} :
    s.EmissionHeld (fun _ => True) ↔ s.budgetHoldsFeed ∧ s.limits.entries.length = 52 :=
  ⟨fun ⟨sized, reasoned, spent⟩ => ⟨fun l => ⟨reasoned l, fun h => spent l trivial (decide_eq_true h)⟩, sized⟩,
    fun ⟨held, sized⟩ => ⟨sized, fun l => (held l).1, fun l _ h => (held l).2 (of_decide_eq_true h)⟩⟩

theorem spent_congr {s t : State} {l : Line} (entries : t.limits.entries = s.limits.entries)
    (minutes : (t.averagerOf l).minutes = (s.averagerOf l).minutes) : t.spent l = s.spent l := by
  unfold State.spent State.lineLimit State.limit State.limitEntry
  rw [entries, minutes]

theorem spent_of_lessFeed {s t : State} (h : t.lessFeed = s.lessFeed) (l : Line) : t.spent l = s.spent l :=
  read_of_erased State.lessFeed (read := fun s => s.spent l) (fun _ => rfl) h

/-! ### A reason posted (R113) -/

theorem reasons_postReason (l m : Line) (r : EmissionReason) (s : State) : ((postReason l r s).feedOf m).reasons =
    if m = l then (s.feedOf l).reasons.add r else (s.feedOf m).reasons := by
  have added : ((s.modFeed l fun f => { f with reasons := f.reasons.add r }).feedOf m).reasons =
      if m = l then (s.feedOf l).reasons.add r else (s.feedOf m).reasons := by
    rw [State.feedOf_modFeed, apply_ite Feed.reasons]
  unfold postReason
  dsimp only
  split
  · exact (reasons_addHold l m .emission _).trans added
  · exact added

/-- The first reason adds EMISSION. -/
theorem emission_postReason (l m : Line) (r : EmissionReason) (s : State) : ((postReason l r s).feedOf m).holds.emission =
    if m = l ∧ (s.feedOf l).reasons.isEmpty = true then true else (s.feedOf m).holds.emission := by
  have same : ((s.modFeed l fun f => { f with reasons := f.reasons.add r }).feedOf m).holds = (s.feedOf m).holds :=
    holds_modFeed l m rfl
  unfold postReason
  dsimp only
  split
  · rename_i first
    refine (get_addHold l m .emission .emission _).trans ?_
    rw [same]
    simp [first, HoldSet.get]
  · rename_i later
    rw [same, if_neg fun h => later h.2]

/-! ### EMISSION removed with its reasons (R114) -/

/-- A line's EMISSION once CLEAR_HOLD has cleared it. -/
def emissionCleared (l : Line) (s : State) : State :=
  removeHold l .emission (s.modFeed l fun f => { f with reasons := ReasonSet.empty })

theorem lessFeed_emissionCleared (l : Line) (s : State) : (emissionCleared l s).lessFeed = s.lessFeed :=
  lessFeed_removeHold l .emission _

theorem reasons_emissionCleared (l m : Line) (s : State) : ((emissionCleared l s).feedOf m).reasons =
    if m = l then ReasonSet.empty else (s.feedOf m).reasons := by
  refine (reasons_removeHold l m .emission _).trans ?_
  rw [State.feedOf_modFeed, apply_ite Feed.reasons]

theorem get_emissionCleared (l m : Line) (k : HoldCause) (s : State) : ((emissionCleared l s).feedOf m).holds.get k =
    if m = l ∧ k = .emission then false else (s.feedOf m).holds.get k := by
  refine (get_removeHold l m .emission k _).trans ?_
  rw [holds_modFeed l m rfl]

/-! ### Every operation -/

theorem ReasonSet.isEmpty_add (x : ReasonSet) (r : EmissionReason) : (x.add r).isEmpty = false := by
  cases r <;> simp [ReasonSet.add, ReasonSet.isEmpty]

namespace State.EmissionHeld
variable {judged judged' : Line → Prop} {s : State} (h : s.EmissionHeld judged)
include h

/-- EMISSION and its reasons stay, and no line's minutes become used up. -/
theorem mono {t : State} (entries : t.limits.entries = s.limits.entries)
    (emission : ∀ l, (t.feedOf l).holds.emission = (s.feedOf l).holds.emission)
    (reasons : ∀ l, (t.feedOf l).reasons = (s.feedOf l).reasons)
    (spent : ∀ l, judged' l → t.spent l = true → judged l ∧ s.spent l = true) : t.EmissionHeld judged' where
  sized := entries ▸ h.sized
  reasoned l := by rw [emission, reasons]; exact h.reasoned l
  spent l ho hs := by
    obtain ⟨was, used⟩ := spent l ho hs
    rw [emission]
    exact h.spent l was used

theorem fewer (ho : ∀ l, judged' l → judged l) : s.EmissionHeld judged' :=
  h.mono rfl (fun _ => rfl) (fun _ => rfl) fun l hl hs => ⟨ho l hl, hs⟩

/-- Work of the feed admission units that leaves EMISSION and its reasons. -/
theorem of_lessFeed {t : State} (rest : t.lessFeed = s.lessFeed)
    (emission : ∀ l, (t.feedOf l).holds.emission = (s.feedOf l).holds.emission)
    (reasons : ∀ l, (t.feedOf l).reasons = (s.feedOf l).reasons) : t.EmissionHeld judged :=
  h.mono (congrArg LimitTable.entries (limits_of_lessFeed rest)) emission reasons
    fun l ho hs => ⟨ho, spent_of_lessFeed rest l ▸ hs⟩

theorem of_ground {t : State} {c : Line → TripSet} (hg : t.ground = { s.ground with causes := c }) :
    t.EmissionHeld judged := by
  have entries : t.limits.entries = s.limits.entries := congrArg Ground.entries hg
  have feed (l : Line) : t.feedOf l = s.feedOf l := congrFun (congrArg Ground.feed hg) l
  have minutes (l : Line) : (t.averagerOf l).minutes = (s.averagerOf l).minutes := congrFun (congrArg Ground.minutes hg) l
  exact h.mono entries (fun l => by rw [feed]) (fun l => by rw [feed])
    fun l ho hs => ⟨ho, spent_congr entries (minutes l) ▸ hs⟩

theorem eased {l : Line} {g : Feed → Feed} (he : (s.feedOf l).Eased (g (s.feedOf l))) :
    (s.modFeed l g).EmissionHeld judged :=
  h.of_lessFeed rfl (fun m => by rw [holds_modFeed l m he.holds]) fun m => reasons_modFeed l m s he.reasons

theorem releaseCheck (l : Line) : (Machine.releaseCheck l s).EmissionHeld judged :=
  h.of_lessFeed (lessFeed_releaseCheck l s) (fun m => by rw [holds_releaseCheck]) fun m => reasons_releaseCheck l m s

theorem addHold (l : Line) {c : HoldCause} (hc : c ≠ .emission) : (Machine.addHold l c s).EmissionHeld judged :=
  h.of_lessFeed (lessFeed_addHold l c s)
    (fun m => (get_addHold l m c .emission s).trans (if_neg fun he => hc he.2.symm)) fun m => reasons_addHold l m c s

theorem removeHold (l : Line) {c : HoldCause} (hc : c ≠ .emission) : (Machine.removeHold l c s).EmissionHeld judged :=
  h.of_lessFeed (lessFeed_removeHold l c s)
    (fun m => (get_removeHold l m c .emission s).trans (if_neg fun he => hc he.2.symm)) fun m => reasons_removeHold l m c s

theorem sinkChange (l : Line) : (Machine.sinkChange l s).EmissionHeld judged :=
  keeps_ite (h.addHold l (by decide)) ((h.removeHold l (by decide)).releaseCheck l)

/-- A line with a reason posted holds EMISSION, whatever its minutes (R113). -/
theorem postReason (l : Line) (r : EmissionReason) :
    (Machine.postReason l r s).EmissionHeld fun m => judged m ∨ m = l := by
  have emission (m : Line) : ((Machine.postReason l r s).feedOf m).holds.emission =
      if m = l then true else (s.feedOf m).holds.emission := by
    rw [emission_postReason]
    by_cases hm : m = l
    · subst hm
      cases first : (s.feedOf m).reasons.isEmpty with
      | true => simp
      | false => simp [h.reasoned, first]
    · simp [hm]
  have rest := lessFeed_postReason l r s
  refine ⟨congrArg LimitTable.entries (limits_of_lessFeed rest) ▸ h.sized, fun m => ?_, fun m ho hs => ?_⟩
  · rw [emission, reasons_postReason]
    split
    · rw [ReasonSet.isEmpty_add]
      rfl
    · exact h.reasoned m
  · rw [emission]
    split
    · rfl
    · rename_i other
      exact h.spent m (ho.resolve_right other) (spent_of_lessFeed rest m ▸ hs)

/-- A line's minutes judged (R113, R118, R119). -/
theorem postBudget (l : Line) : (Machine.postBudget l s).EmissionHeld fun m => judged m ∨ m = l := by
  unfold Machine.postBudget
  split
  · exact h.postReason l .budget
  · rename_i within
    refine h.mono rfl (fun _ => rfl) (fun _ => rfl) fun m ho hs => ⟨ho.resolve_right ?_, hs⟩
    rintro rfl
    exact within (of_decide_eq_true hs)

/-- CLEAR_HOLD removes EMISSION with its reasons, and not where the minutes are used up (R114). -/
theorem clearEmission (l : Line) : (Machine.clearEmission l s).after.EmissionHeld judged := by
  unfold Machine.clearEmission
  split
  · exact h
  · split
    · exact h
    · rename_i clear
      have rest := lessFeed_emissionCleared l s
      have emission (m : Line) : ((emissionCleared l s).feedOf m).holds.emission =
          if m = l then false else (s.feedOf m).holds.emission := by
        simpa [HoldSet.get] using get_emissionCleared l m .emission s
      refine ⟨congrArg LimitTable.entries (limits_of_lessFeed rest) ▸ h.sized, fun m => ?_, fun m ho hs => ?_⟩
      · refine (emission m).trans ((congrArg (fun x => !ReasonSet.isEmpty x) (reasons_emissionCleared l m s)).symm ▸ ?_)
        split
        · rfl
        · exact h.reasoned m
      · have used : s.spent m = true := (spent_of_lessFeed rest m).symm.trans hs
        have other : m ≠ l := by
          rintro rfl
          exact clear (by rw [Bool.or_eq_true]; exact .inr used)
        exact (emission m).trans ((if_neg other).trans (h.spent m ho used))

/-- Minutes written on one line: the others are judged as before. -/
theorem minutes (l : Line) (g : Averager → Averager) :
    (s.modAverager l g).EmissionHeld fun m => judged m ∧ m ≠ l :=
  h.mono rfl (fun _ => rfl) (fun _ => rfl) fun m ho hs => ⟨ho.1, by
    rwa [spent_congr (s := s) (t := s.modAverager l g) rfl (by rw [State.averagerOf_modAverager, if_neg ho.2])] at hs⟩

/-- Minutes set to 0 become used up nowhere (R131). -/
theorem newYear (l : Line) : (s.modAverager l fun a => { a with minutes := 0 }).EmissionHeld judged := by
  refine h.mono rfl (fun _ => rfl) (fun _ => rfl) fun m ho hs => ⟨ho, ?_⟩
  have used := of_decide_eq_true hs
  rw [State.averagerOf_modAverager] at used
  refine decide_eq_true (le_trans used ?_)
  split
  · exact Int.natCast_nonneg _
  · exact le_rfl

theorem halfHourCloses (l : Line) (b : Nat) : (Machine.halfHourCloses l b s).EmissionHeld judged :=
  halfHourCloses_holds (P := State.EmissionHeld judged) (Q := State.EmissionHeld fun m => judged m ∧ m ≠ l)
    (fun {s _} hs hg => hs.of_ground (c := s.ground.causes) hg) (fun _ hs => hs.minutes l _)
    (fun hs => (hs.postReason l .episodeCap).fewer fun _ => Or.inl)
    (fun hs => (hs.postBudget l).fewer fun m ho => (em (m = l)).elim Or.inr fun hm => .inl ⟨ho, hm⟩) b h

end State.EmissionHeld

theorem tripBlind_emissionHeld (judged : Line → Prop) : TripBlind (State.EmissionHeld judged) where
  causes hs hg := hs.of_ground hg
  added l hs := hs.addHold l (by decide)
  removed l hs := hs.removeHold l (by decide)

theorem guarded_emissionHeld (judged : Line → Prop) : Guarded (State.EmissionHeld judged) where
  ground hs hg := (tripBlind_emissionHeld judged).ground hs hg
  eased he hs := hs.eased he
  releaseCheck l hs := hs.releaseCheck l
  addHold l _ hc hs := hs.addHold l hc
  removeHold l c hc hs := hs.removeHold l (by rintro rfl; simp at hc)
  deriveSink hs := deriveSink_holds (tripBlind_emissionHeld judged).ground
    (fun _ hs => hs.mono rfl (fun _ => rfl) (fun _ => rfl) fun _ ho used => ⟨ho, used⟩) (fun l hs => hs.sinkChange l) hs
  postReason l r hs := (hs.postReason l r).fewer fun _ => Or.inl
  clearEmission l hs := hs.clearEmission l
  halfHourCloses l b hs := hs.halfHourCloses l b
  newYear l hs := hs.newYear l
  addTripCause l c hs := (tripBlind_emissionHeld judged).addTripCause l c hs
  tripReset l hs := (tripBlind_emissionHeld judged).tripReset l hs
  scrub hs := (tripBlind_emissionHeld judged).scrub hs

/-! ### The limit table -/

/-- An entry in place of another: a line whose BUDGET it is is still to be judged. -/
theorem State.EmissionHeld.withEntry {judged : Line → Prop} {s : State} (h : s.EmissionHeld judged) (i : LimitId)
    (e : LimitEntry) : (s.withEntry i e).EmissionHeld fun l => judged l ∧ i ≠ .line l .budget where
  sized := (List.length_set ..).trans h.sized
  reasoned := h.reasoned
  spent l ho hs := by
    have used := of_decide_eq_true hs
    rw [lineLimit_withEntry h.sized, if_neg ho.2.symm] at used
    exact h.spent l ho.1 (decide_eq_true used)

/-- A written BUDGET whose effective value changes is judged at once (R69, R113). -/
theorem State.EmissionHeld.writeLimit {judged : Line → Prop} {s : State} (h : s.EmissionHeld judged) (i : LimitId)
    (e : LimitEntry) : (Machine.writeLimit i e s).EmissionHeld judged := by
  have written := h.withEntry i e
  unfold Machine.writeLimit
  dsimp only
  split
  · rename_i same
    refine ⟨written.sized, written.reasoned, fun l ho hs => ?_⟩
    by_cases hi : i = .line l .budget
    · subst hi
      refine h.spent l ho (decide_eq_true ?_)
      have used := of_decide_eq_true hs
      exact (congrArg (· ≤ ((s.averagerOf l).minutes : Int)) same).mp used
    · exact written.spent l ⟨ho, hi⟩ hs
  · have delivered := (guarded_emissionHeld _).deliverLimit i written
    by_cases budget : ∃ l, i = .line l .budget
    · obtain ⟨l, rfl⟩ := budget
      refine (written.postBudget l).fewer fun m ho => (em (m = l)).elim Or.inr fun hm => .inl ⟨ho, fun hi => hm ?_⟩
      injection hi with hl
      exact hl.symm
    · exact delivered.fewer fun l ho => ⟨ho, fun hi => budget ⟨l, hi⟩⟩

/-- The four requests upon the limit table write an entry, or the mode, or nothing. -/
theorem State.EmissionHeld.setLimit {judged : Line → Prop} {s : State} (h : s.EmissionHeld judged) (index : Nat) (v : Int) :
    (Machine.setLimit index v s).2.EmissionHeld judged := by
  rcases setLimit_outcomes index v s with he | ⟨i, -, -, he⟩ <;> rw [he]
  · exact h
  · exact h.writeLimit i _

theorem State.EmissionHeld.setOverride {judged : Line → Prop} {s : State} (h : s.EmissionHeld judged) (index : Nat) (v : Int) :
    (Machine.setOverride index v s).2.EmissionHeld judged := by
  rcases setOverride_outcomes index v s with he | ⟨i, -, -, he⟩ <;> rw [he]
  · exact h
  · exact h.writeLimit i _

theorem State.EmissionHeld.clearOverride {judged : Line → Prop} {s : State} (h : s.EmissionHeld judged) (index : Nat) :
    (Machine.clearOverride index s).2.EmissionHeld judged := by
  rcases clearOverride_outcomes index s with he | ⟨i, -, he⟩ <;> rw [he]
  · exact h
  · exact h.writeLimit i _

theorem State.EmissionHeld.freeze {judged : Line → Prop} {s : State} (h : s.EmissionHeld judged) :
    (Machine.freeze s).2.EmissionHeld judged := by
  rcases freeze_outcomes s with he | ⟨-, he⟩ <;> rw [he]
  · exact h
  · exact h.mono rfl (fun _ => rfl) (fun _ => rfl) fun _ ho used => ⟨ho, used⟩

/-! ### The resets -/

/-- LINE and SOFT empty the holds of EMISSION with their reasons, and judge the minutes of both lines at their end (R118,
R119). -/
theorem State.EmissionHeld.judgedBoth {s : State} (h : s.EmissionHeld fun _ => False) :
    (Machine.postBudget .two (Machine.postBudget .one s)).EmissionHeld fun _ => True :=
  ((h.postBudget .one).postBudget .two).fewer fun l _ => by cases l <;> simp

theorem emissionHeld_lineBase (straps : BitVec 8) {s : State} (sized : s.limits.entries.length = 52) :
    (lineBase straps s).EmissionHeld fun _ => False :=
  ⟨sized, fun l => by cases l <;> rfl, fun _ ho => ho.elim⟩

theorem emissionHeld_softBase {s : State} (sized : s.limits.entries.length = 52) :
    (softBase s).EmissionHeld fun _ => False :=
  ⟨sized, fun l => by cases l <;> rfl, fun _ ho => ho.elim⟩

theorem emissionHeld_lineReset (straps : BitVec 8) {s : State} (h : s.EmissionHeld fun _ => True) :
    (lineReset straps s).EmissionHeld fun _ => True := by
  have asserted := (guarded_emissionHeld _).assertReset h
  exact ((guarded_emissionHeld _).resetScrub (emissionHeld_lineBase straps asserted.sized)).judgedBoth

theorem emissionHeld_softReset {s : State} (h : s.EmissionHeld fun _ => True) :
    (softReset s).EmissionHeld fun _ => True := by
  have settled := (guarded_emissionHeld _).settleAll h
  have guarded := guarded_emissionHeld fun _ => False
  have evaluated := guarded.restartEvaluated (guarded.restartScrubbed (emissionHeld_softBase settled.sized))
  rw [softReset_eq]
  exact (guarded_emissionHeld _).noticesSince _ evaluated.judgedBoth

theorem emissionHeld_reset : State.reset.EmissionHeld fun _ => True :=
  ⟨rfl, fun l => by cases l <;> rfl, fun l _ _ => by cases l <;> rfl⟩

/-! ### Every step -/

theorem emissionHeld_exec {c : Instr} {s t : State} (h : s.EmissionHeld fun _ => True) (hx : exec c s = .next t) :
    t.EmissionHeld fun _ => True := by
  have guarded := guarded_emissionHeld fun _ => True
  have next {u : State} (hu : u.EmissionHeld fun _ => True) (he : exec c s = .next u) : t.EmissionHeld fun _ => True := by
    rw [he] at hx
    cases hx
    exact hu
  cases c with
  | powerOn straps => exact next (guarded.ground (t := powerOn straps s) emissionHeld_reset rfl) rfl
  | resetNAssert => exact next (guarded.assertReset h) rfl
  | lineReset straps => exact next (emissionHeld_lineReset straps h) rfl
  | restart =>
    exact next (guarded.serve_confirmed (body := restartBody)
      (fun _ _ hu => Stable.answered .done (emissionHeld_softReset hu)) _ _ h) rfl
  | setLimit => exact next (guarded.serve_sized (body := setLimitBody) (fun _ _ hu => State.EmissionHeld.setLimit hu _ _) _ _ h) rfl
  | setOverride =>
    exact next (guarded.serve_sized (body := setOverrideBody) (fun _ _ hu => State.EmissionHeld.setOverride hu _ _) _ _ h) rfl
  | clearOverride =>
    exact next (guarded.serve_sized (body := clearOverrideBody) (fun _ _ hu => State.EmissionHeld.clearOverride hu _) _ _ h) rfl
  | freeze => exact next (guarded.serve_confirmed (body := freezeBody) (fun _ _ hu => State.EmissionHeld.freeze hu) _ _ h) rfl
  | _ => exact guarded.exec rfl rfl h hx

/-- Settles O53: a reason posted adds EMISSION, CLEAR_HOLD refuses where the minutes are used up, and every close, written
BUDGET and reset judges the minutes. -/
theorem budgetHoldsFeedAlways : Obligations.BudgetHoldsFeedAlways := by
  intro s t held sized hx
  have before := emissionHeld_iff.mpr ⟨held, sized⟩
  unfold step at hx
  split at hx
  · rename_i c rest hp
    have taken : State.EmissionHeld (fun _ => True) { s with pending := rest } := (guarded_emissionHeld _).ground before rfl
    exact (emissionHeld_iff.mp (emissionHeld_exec taken hx)).1
  · cases hx
    exact held

end Sys2Proof.Machine
end

section
/-! SUPPORT. Requests that a feed admission unit executes: HOLD_FEED and CLEAR_HOLD (R106, R109, R114). -/

namespace Sys2Proof.Machine

/-! ### Executions within a feed admission unit -/

/-- What an answered request leaves whose body worked upon feed admission units alone: its feed admission units and
actuators as the body left them, and all else, its REPLY and NOTICEs apart, as it stood. -/
structure FeedAnswered (r : Request) (rest : List Request) (s u t : State) : Prop where
  answered : Answered r rest .done [] s.ownStation t
  feed : t.feed = u.feed
  actuators : t.actuators = u.actuators
  others : { t with
    ports := s.ports, attention := s.attention, nextMark := s.nextMark, actuators := s.actuators,
    requests := s.requests, reservation := s.reservation, feed := s.feed } = s

theorem FeedAnswered.feedOf {r : Request} {rest : List Request} {s u t : State} (h : FeedAnswered r rest s u t) (l : Line) :
    t.feedOf l = u.feedOf l := congrArg (PerLine.get · l) h.feed

theorem FeedAnswered.sameActuators {r : Request} {rest : List Request} {s b u t : State} (h : FeedAnswered r rest s u t)
    (hu : SameActuators b u) : SameActuators b t := by
  unfold SameActuators
  rw [h.actuators]
  exact hu

theorem serve_feedAnswered {row : Instr} {r : Request} {rest : List Request} {s u : State}
    {body : Request → State → Answer} (h : Ready row r rest s) (hb : body r (s.beginExecution rest) = answer .done u)
    (hu : u.lessFeed = (s.beginExecution rest).lessFeed) : FeedAnswered r rest s u (serve row body s) := by
  have requests : u.requests = rest := congrArg (fun x => x.requests) hu
  have own : u.ownStation = s.ownStation := congrArg (fun x => x.ownStation) hu
  obtain ⟨answered, left⟩ := serve_answered h hb requests own
  refine ⟨answered, congrArg (fun x => x.feed) left, congrArg (fun x => x.actuators) left, ?_⟩
  have erased : (serve row body s).lessFeed = { (s.beginExecution rest).lessFeed with reservation := false } := by
    rw [← hu]
    exact congrArg State.lessFeed left
  exact congrArg (fun x : State => { x with
    ports := s.ports, attention := s.attention, nextMark := s.nextMark, actuators := s.actuators,
    requests := s.requests, reservation := s.reservation, feed := s.feed }) erased

/-- A request whose first argument is a line's code. -/
theorem onLine_of_code (l : Line) (args : List Byte) (s : State) (body : Line → Answer) :
    onLine (u8 l.code :: args) s body = body l := by
  cases l <;> rfl

/-! ### Holds -/

theorem HoldSet.ext_get {x y : HoldSet} (h : ∀ c, x.get c = y.get c) : x = y := by
  obtain ⟨manual, tripped, furnaceCold, noSink, emission, noRam⟩ := x
  obtain ⟨manual', tripped', furnaceCold', noSink', emission', noRam'⟩ := y
  exact HoldSet.mk.injEq .. ▸ ⟨h .manual, h .tripped, h .furnaceCold, h .noSink, h .emission, h .noRam⟩

/-- Each change of a cause is a change of that flag in the line's hold set, and of nothing else there (R108). -/
theorem holds_addHold (l : Line) (c : HoldCause) (s : State) :
    ((addHold l c s).feedOf l).holds = (s.feedOf l).holds.set c true :=
  HoldSet.ext_get fun k => by rw [get_addHold, HoldSet.get_set]; simp

theorem holds_removeHold (l : Line) (c : HoldCause) (s : State) :
    ((removeHold l c s).feedOf l).holds = (s.feedOf l).holds.set c false :=
  HoldSet.ext_get fun k => by rw [get_removeHold, HoldSet.get_set]; simp

/-- An abort and a hold leave the stroke queue (R106). -/
theorem queue_addHold (l : Line) (c : HoldCause) (s : State) :
    ((addHold l c s).feedOf l).queue = (s.feedOf l).queue := by
  unfold addHold
  split
  · rfl
  · rw [feedOf_abortStroke, State.feedOf_modFeed_self]
    split <;> rfl

theorem inStroke_addHold {l : Line} {c : HoldCause} {s : State} (h : (s.feedOf l).holds.get c = false) :
    (addHold l c s).inStroke l = false := by
  rw [addHold, if_neg (by simp [h]), inStroke_abortStroke]

/-! ### CLEAR_HOLD on EMISSION (R114) -/

theorem episodeOpen_iff {s : State} {l : Line} :
    s.episodeOpen l = true ↔ ∃ e ∈ s.log, e.status = .open ∧ e.kind = .halfHour ∧ e.line = l := by
  unfold State.episodeOpen
  simp [and_assoc]

theorem clearEmission_of_absent {l : Line} {s : State} (h : (s.feedOf l).holds.emission = false) :
    clearEmission l s = answer .ignored s := by
  unfold clearEmission
  rw [h]
  rfl

section
variable {l : Line} {s : State} (held : (s.feedOf l).holds.emission = true)
include held

theorem clearEmission_of_busy (h : s.episodeOpen l = true ∨ s.spent l = true) :
    clearEmission l s = answer .refusedBusy s := by
  unfold clearEmission
  rw [held]
  exact if_pos (Bool.or_eq_true_iff.mpr h)

theorem clearEmission_of_clear (closed : s.episodeOpen l = false) (within : s.spent l = false) :
    clearEmission l s = answer .done (emissionCleared l s) := by
  have busy : ¬ (s.episodeOpen l || s.spent l) = true := by rw [closed, within]; decide
  unfold clearEmission
  rw [held]
  exact if_neg busy

end

theorem feedOf_emissionCleared_ne {l m : Line} (h : m ≠ l) (s : State) : (emissionCleared l s).feedOf m = s.feedOf m :=
  (feedOf_removeHold_ne h .emission _).trans (feedOf_modFeed_ne h _ s)

theorem holds_emissionCleared (l : Line) (s : State) :
    ((emissionCleared l s).feedOf l).holds = (s.feedOf l).holds.set .emission false :=
  HoldSet.ext_get fun k => by rw [get_emissionCleared, HoldSet.get_set]; simp

/-! ### The bodies -/

section
variable (l : Line) (s : State)

theorem holdFeedBody_of_held (h : (s.feedOf l).holds.manual = true) :
    holdFeedBody [u8 l.code] s = answer .ignored s := by
  rw [holdFeedBody, onLine_of_code, if_pos h]

theorem holdFeedBody_of_free (h : (s.feedOf l).holds.manual = false) :
    holdFeedBody [u8 l.code] s = answer .done (addHold l .manual s) := by
  rw [holdFeedBody, onLine_of_code, if_neg (by simp [h])]

theorem clearHoldBody_manual : clearHoldBody [u8 l.code, 1] s =
    if (s.feedOf l).holds.manual then answer .done (removeHold l .manual s) else answer .ignored s :=
  onLine_of_code l [1] s _

theorem clearHoldBody_emission : clearHoldBody [u8 l.code, 5] s = clearEmission l s := onLine_of_code l [5] s _

/-- A code that names no cause. -/
theorem clearHoldBody_unknown {c : Byte} (h : c = 0#8 ∨ 7 ≤ c.toNat) :
    clearHoldBody [u8 l.code, c] s = answer .refusedRange s := by
  have unnamed : HoldCause.ofCode? c.toNat = none := by
    rcases h with rfl | beyond
    · rfl
    · obtain ⟨n, hn⟩ := Nat.exists_eq_add_of_le' beyond
      rw [hn]
      rfl
  have code : byteAt [u8 l.code, c] 1 = c.toNat := rfl
  rw [clearHoldBody, onLine_of_code, code, unnamed]

/-- The causes that follow conditions are not removed by request. -/
theorem clearHoldBody_following {c : Byte} {h : HoldCause} (named : HoldCause.ofCode? c.toNat = some h)
    (manual : h ≠ .manual) (emission : h ≠ .emission) :
    clearHoldBody [u8 l.code, c] s = answer (if (s.feedOf l).holds.get h then .refusedBusy else .ignored) s := by
  have code : byteAt [u8 l.code, c] 1 = c.toNat := rfl
  rw [clearHoldBody, onLine_of_code, code, named, apply_ite (answer · s)]
  cases h with
  | manual => exact absurd rfl manual
  | emission => exact absurd rfl emission
  | _ => rfl

end

end Sys2Proof.Machine
end

section
/-! The statement on HOLD_FEED and CLEAR_HOLD. -/

namespace Sys2Proof.Machine

/-- HOLD_FEED (R106, R109). -/
theorem holdFeed_effect {r : Request} {rest : List Request} {l : Line} {s : State} (ready : Ready .holdFeed r rest s)
    (args : r.args = [u8 l.code]) :
    ((s.feedOf l).holds.manual = true → exec .holdFeed s = .next (withReply r rest .ignored [] s)) ∧
    ((s.feedOf l).holds.manual = false →
      ∃ t, exec .holdFeed s = .next t ∧ FeedAnswered r rest s (addHold l .manual (s.beginExecution rest)) t) := by
  have body : sized 1 holdFeedBody r (s.beginExecution rest) = holdFeedBody [u8 l.code] (s.beginExecution rest) := by
    rw [sized_of_length _ (by rw [args]; rfl), args]
  refine ⟨fun held => ?_, fun free => ⟨_, rfl, ?_⟩⟩
  · exact congrArg Host.Outcome.next (serve_refused ready (body.trans (holdFeedBody_of_held l _ held)))
  · exact serve_feedAnswered ready (body.trans (holdFeedBody_of_free l _ free)) (lessFeed_addHold l .manual _)

section
variable {r : Request} {rest : List Request} {l : Line} {s : State} {c : Byte} (ready : Ready .clearHold r rest s)
  (args : r.args = [u8 l.code, c])
include ready args

/-- A CLEAR_HOLD that is not carried out. -/
theorem clearHold_refused {st : Status}
    (hb : clearHoldBody [u8 l.code, c] (s.beginExecution rest) = answer st (s.beginExecution rest)) :
    exec .clearHold s = .next (withReply r rest st [] s) :=
  congrArg Host.Outcome.next (serve_refused ready ((sized_of_length _ (by rw [args]; rfl)).trans (args ▸ hb)))

/-- A CLEAR_HOLD that is carried out within the line's feed admission unit. -/
theorem clearHold_done {u : State} (hb : clearHoldBody [u8 l.code, c] (s.beginExecution rest) = answer .done u)
    (hu : u.lessFeed = (s.beginExecution rest).lessFeed) :
    ∃ t, exec .clearHold s = .next t ∧ FeedAnswered r rest s u t :=
  ⟨_, rfl, serve_feedAnswered ready ((sized_of_length _ (by rw [args]; rfl)).trans (args ▸ hb)) hu⟩

end

/-- Settles O45: by the cause named, and by whether it is held. -/
theorem holdRequests : Obligations.HoldRequests := by
  intro r rest l s
  refine ⟨fun ready args => ?_, fun ready args => ?_, fun ready args => ?_, fun c ready args => ⟨fun unknown => ?_, ?_⟩⟩
  · obtain ⟨ignored, done⟩ := holdFeed_effect ready args
    refine ⟨ignored, fun free => ?_⟩
    obtain ⟨t, executed, ends⟩ := done free
    have own := ends.feedOf l
    refine ⟨t, executed, ends.answered, ?_, fun m hm => ?_, ?_, ?_, ?_, ?_, ends.others⟩
    · rw [own, holds_addHold]
      rfl
    · rw [ends.feedOf, feedOf_addHold_ne hm]
      rfl
    · rw [inStroke_of_feedOf own]
      exact inStroke_addHold free
    · rw [own, queue_addHold]
      rfl
    · rw [own, bed_addHold]
      rfl
    · exact ends.sameActuators ((calm_sameActuators s).addHold l .manual (sameActuators_refl s))
  · refine ⟨fun absent => ?_, fun held => ?_⟩
    · exact clearHold_refused ready args ((clearHoldBody_manual l _).trans (if_neg (Bool.eq_false_iff.mp absent)))
    · obtain ⟨t, executed, ends⟩ :=
        clearHold_done ready args ((clearHoldBody_manual l _).trans (if_pos held)) (lessFeed_removeHold l .manual _)
      refine ⟨t, executed, ends.answered, ?_, fun m hm => ?_⟩
      · rw [ends.feedOf, holds_removeHold]
        rfl
      · rw [ends.feedOf, feedOf_removeHold_ne hm]
        rfl
  · have body := clearHoldBody_emission l (s.beginExecution rest)
    refine ⟨fun absent => ?_, fun held busy => ?_, fun held closed within => ?_⟩
    · exact clearHold_refused ready args (body.trans (clearEmission_of_absent absent))
    · refine clearHold_refused ready args (body.trans (clearEmission_of_busy held ?_))
      exact busy.imp episodeOpen_iff.mpr decide_eq_true
    · have none : s.episodeOpen l = false := Bool.eq_false_iff.mpr fun h => by
        obtain ⟨e, logged, opened, halfHour, line⟩ := episodeOpen_iff.mp h
        exact closed e logged opened halfHour line
      have below : s.spent l = false := decide_eq_false (by omega)
      obtain ⟨t, executed, ends⟩ := clearHold_done ready args (body.trans (clearEmission_of_clear held none below))
        (lessFeed_emissionCleared l _)
      refine ⟨t, executed, ends.answered, ?_, ?_, fun m hm => ?_⟩
      · rw [ends.feedOf, holds_emissionCleared]
        rfl
      · rw [ends.feedOf, reasons_emissionCleared, if_pos rfl]
        rfl
      · rw [ends.feedOf, feedOf_emissionCleared_ne hm]
        rfl
  · exact clearHold_refused ready args (clearHoldBody_unknown l _ unknown)
  · exact fun h named manual emission => clearHold_refused ready args (clearHoldBody_following l _ named manual emission)

end Sys2Proof.Machine
end

section
/-! SUPPORT. Rams as the feed admission units see them, and ENABLE_RAM (R82, R115, R116). -/

namespace Sys2Proof.Machine

/-! ### Ram states -/

/-- The last forwarded values are no part of a ram's state. -/
theorem SameActuators.ram {s t : State} (h : SameActuators s t) (e : Nat) :
    (t.actuator e).map (·.ram) = (s.actuator e).map (·.ram) := by
  have record (u : State) : (u.actuators.map (Option.map Actuator.lessLast)).getD e none =
      (u.actuator e).map Actuator.lessLast := List.getD_map _ none (Option.map Actuator.lessLast)
  have same := congrArg (fun x => (x.getD e none).map (·.ram)) (sameActuators_iff.mp h)
  simp only [record, Option.map_map] at same
  exact same

theorem inService_iff {s : State} {e : Nat} : s.inService e = true ↔ (s.actuator e).map (·.ram) = some .inService := by
  unfold State.inService
  cases s.actuator e <;> simp

theorem SameActuators.inService {s t : State} (h : SameActuators s t) (e : Nat) : t.inService e = s.inService e := by
  rw [Bool.eq_iff_iff, inService_iff, inService_iff, h.ram]

theorem ramOf_of_lessFeed {s t : State} (h : t.lessFeed = s.lessFeed) (l : Line) (e : Nat) : t.ramOf l e = s.ramOf l e :=
  read_of_erased State.lessFeed (read := fun s => s.ramOf l e) (fun _ => rfl) h

theorem someRam_of_ramOf {s : State} {l : Line} {e : Nat} (listed : s.ramOf l e = true) (serves : s.inService e = true) :
    s.someRam l = true :=
  List.any_eq_true.mpr ⟨e, List.contains_iff_mem.mp listed, serves⟩

/-! ### NO_RAM (R115) -/

theorem noRam_ramChange (l : Line) (s : State) : ((ramChange l s).feedOf l).holds.noRam = !s.someRam l := by
  unfold ramChange evalNoRam
  rw [holds_releaseCheck]
  split
  · rename_i some
    rw [holds_removeHold, some]
    rfl
  · rename_i none
    rw [holds_addHold, Bool.eq_false_iff.mpr none]
    rfl

/-- A line's part in a change of a ram, where its list names the entry (R82). -/
def ramTaken (l : Line) (e : Nat) (s : State) : State := if s.ramOf l e then ramChange l s else s

theorem sameActuators_ramTaken (l : Line) (e : Nat) (s : State) : SameActuators s (ramTaken l e s) :=
  keeps_ite ((calm_sameActuators s).ramChange l (sameActuators_refl s)) (sameActuators_refl s)

theorem lessFeed_ramTaken (l : Line) (e : Nat) (s : State) : (ramTaken l e s).lessFeed = s.lessFeed :=
  keeps_ite (P := fun t => t.lessFeed = s.lessFeed) (lessFeed_ramChange l s) rfl

theorem feedOf_ramTaken_ne {l m : Line} (h : m ≠ l) (e : Nat) (s : State) : (ramTaken l e s).feedOf m = s.feedOf m :=
  keeps_ite (P := fun t => t.feedOf m = s.feedOf m) (feedOf_ramChange_ne h s) rfl

theorem ramTaken_of_unlisted {l : Line} {e : Nat} {s : State} (h : s.ramOf l e = false) : ramTaken l e s = s :=
  if_neg (Bool.eq_false_iff.mp h)

/-- A listed ram in service takes NO_RAM from the line. -/
theorem noRam_ramTaken {l : Line} {e : Nat} {s : State} (listed : s.ramOf l e = true) (serves : s.inService e = true) :
    ((ramTaken l e s).feedOf l).holds.noRam = false := by
  rw [ramTaken, if_pos listed, noRam_ramChange, someRam_of_ramOf listed serves]
  rfl

section
variable {e : Nat} {old new : Actuator} {s : State}

theorem ramWritten_of_changed (changed : old.ram ≠ new.ram) :
    ramWritten e (some old) new s = ramTaken .two e (ramTaken .one e s) := if_neg fun h => changed h.1

theorem lessFeed_ramWritten_of_changed (changed : old.ram ≠ new.ram) :
    (ramWritten e (some old) new s).lessFeed = s.lessFeed := by
  rw [ramWritten_of_changed changed]
  exact (lessFeed_ramTaken .two e _).trans (lessFeed_ramTaken .one e s)

theorem noRam_ramWritten (changed : old.ram ≠ new.ram) (serves : s.inService e = true) {l : Line}
    (listed : s.ramOf l e = true) : ((ramWritten e (some old) new s).feedOf l).holds.noRam = false := by
  rw [ramWritten_of_changed changed]
  cases l with
  | one =>
    rw [feedOf_ramTaken_ne (by decide)]
    exact noRam_ramTaken listed serves
  | two =>
    exact noRam_ramTaken ((ramOf_of_lessFeed (lessFeed_ramTaken .one e s) .two e).trans listed)
      (((sameActuators_ramTaken .one e s).inService e).trans serves)

/-- A ram that no list names is written without more. -/
theorem ramWritten_of_unlisted (changed : old.ram ≠ new.ram) (one : s.ramOf .one e = false) (two : s.ramOf .two e = false) :
    ramWritten e (some old) new s = s := by
  rw [ramWritten_of_changed changed, ramTaken_of_unlisted one, ramTaken_of_unlisted two]

end

/-! ### ENABLE_RAM (R116) -/

section
variable {entry : Byte} {s : State} {a : Actuator}

theorem enableRamBody_beyond (h : 47 < entry.toNat) : enableRamBody [entry] s = answer .refusedRange s := if_pos h

variable (within : entry.toNat ≤ 47)
include within

theorem enableRamBody_empty (empty : s.actuator entry.toNat = none) : enableRamBody [entry] s = answer .unknown s := by
  have code : byteAt [entry] 0 = entry.toNat := rfl
  unfold enableRamBody
  dsimp only
  rw [code, if_neg (Nat.not_lt.mpr within), empty]

variable (record : s.actuator entry.toNat = some a)
include record

/-- An entry that holds a record is examined by its role and its ram state. -/
theorem enableRamBody_of_record : enableRamBody [entry] s =
    if a.role ≠ .feedRam then answer .refusedRange s
    else if a.ram = .inService then answer .ignored s
    else answer .done (ramWritten entry.toNat (some a) { a with ram := .inService }
      (s.setActuator entry.toNat (some { a with ram := .inService }))) := by
  have code : byteAt [entry] 0 = entry.toNat := rfl
  unfold enableRamBody
  dsimp only
  rw [code, if_neg (Nat.not_lt.mpr within), record]

end

end Sys2Proof.Machine
end

section
/-! The statement on ENABLE_RAM. -/

namespace Sys2Proof.Machine

/-- Settles O44: R116's tests in their order; a ram enabled is in service for every line that lists it. -/
theorem enableRamTable : Obligations.EnableRamTable := by
  intro r rest entry s ready args
  have body : sized 1 enableRamBody r (s.beginExecution rest) = enableRamBody [entry] (s.beginExecution rest) := by
    rw [sized_of_length _ (by rw [args]; rfl), args]
  have refused {st : Status} (hb : enableRamBody [entry] (s.beginExecution rest) = answer st (s.beginExecution rest)) :
      exec .enableRam s = .next (withReply r rest st [] s) :=
    congrArg Host.Outcome.next (serve_refused ready (body.trans hb))
  refine ⟨fun beyond => refused (enableRamBody_beyond beyond), fun within empty => ?_, fun a within record => ?_⟩
  · exact refused (enableRamBody_empty (s := s.beginExecution rest) within empty)
  · have examined := enableRamBody_of_record (s := s.beginExecution rest) within record
    refine ⟨fun role => ?_, fun role serving => ?_, fun role idle => ?_⟩
    · exact refused (examined.trans (if_pos role))
    · exact refused (examined.trans ((if_neg (not_not.mpr role)).trans (if_pos serving)))
    · have done := body.trans (examined.trans ((if_neg (not_not.mpr role)).trans (if_neg idle)))
      have ends := serve_feedAnswered ready done (lessFeed_ramWritten_of_changed idle)
      have serves : ((s.beginExecution rest).setActuator entry.toNat (some { a with ram := .inService })).inService
          entry.toNat = true := by
        have placed := (List.getElem?_eq_some_iff.mp (State.getElem?_of_actuator record)).1
        rw [inService_iff, State.actuator_setActuator, if_pos ⟨rfl, placed⟩]
        rfl
      refine ⟨_, rfl, ends.answered, ?_, fun l listed => ?_, fun one two => ?_⟩
      · exact ends.sameActuators ((calm_sameActuators _).toPlain.ramWritten entry.toNat (some a) _ (sameActuators_refl
          (s.setActuator entry.toNat (some { a with ram := .inService }))))
      · rw [ends.feedOf]
        exact noRam_ramWritten idle serves listed
      · refine serve_without_notices ready (done.trans (congrArg (answer .done) ?_)) rfl
        exact ramWritten_of_unlisted (s := (s.beginExecution rest).setActuator _ _) idle one two

end Sys2Proof.Machine
end

section
/-! SUPPORT. The share of a second tick at a feed admission unit (R96, R98, R102, R104, R105). -/

namespace Sys2Proof.Machine

/-! ### The share taken -/

/-- A unit's owed tick, taken where what the command names falls in it, is one event. -/
theorem tickBrings_of_owed {u : TickUnit} {falls : State → Bool} {s : State} (released : s.resetAsserted = false)
    (owed : u ∈ s.owedTick) (h : falls s = true) :
    tickBrings u falls s = takeTick u { s with owedTick := s.owedTick.erase u } := by
  refine (unlessHeld_of_released released _).trans ((if_pos ⟨owed, h⟩).trans ?_)
  exact if_pos owed

/-- A line's unit once the bed charge has decayed and expired strokes have left (R96, R98). -/
def State.burnt (s : State) (l : Line) : State :=
  { s with
    feed := s.feed.set l { s.feedOf l with
      queue := (s.feedOf l).queue.filter fun e => s.plantTime ≤ e.deadline
      bed := (s.feedOf l).bed - (s.lineLimit l .burnRate).toNat } }

theorem burnt_eq (s : State) (l : Line) : expireStrokes l (bedDecay l s) = s.burnt l := by
  cases l <;> rfl

theorem feedOf_burnt (s : State) (l : Line) : (s.burnt l).feedOf l = { s.feedOf l with
    queue := (s.feedOf l).queue.filter fun e => s.plantTime ≤ e.deadline
    bed := (s.feedOf l).bed - (s.lineLimit l .burnRate).toNat } := PerLine.get_set_self s.feed l _

/-- A tick at a feed admission unit is the engine's count and a release check, once the bed has burnt down (R102). -/
theorem takeTick_feed (l : Line) (s : State) :
    takeTick (.feed l) s = noticesSince s (releaseCheck l (engineCount l (s.burnt l))) := by
  rw [← burnt_eq]
  rfl

/-! ### The engine's count (R102) -/

section
variable {l : Line} {s : State}

theorem engineCount_of_ready (h : (s.feedOf l).engine = .ready) : engineCount l s = s := by
  unfold engineCount
  rw [h]

theorem engineCount_of_settled (h : (s.feedOf l).engine = .settling) (last : (s.feedOf l).settleCount = 1) :
    engineCount l s = { s with feed := s.feed.set l { s.feedOf l with engine := .ready, settleCount := 0 } } := by
  have count : (s.feed.get l).settleCount = 1 := last
  unfold engineCount
  rw [h]
  unfold State.modFeed
  dsimp only
  rw [count]
  rfl

theorem engineCount_of_timeout {ram target : Nat} (h : (s.feedOf l).engine = .inStroke ram target)
    (last : (s.feedOf l).timeoutCount = 1) :
    engineCount l s = strokeTimesOut l ram (s.modFeed l fun f => { f with timeoutCount := f.timeoutCount - 1 }) := by
  unfold engineCount
  rw [h]
  refine if_pos ?_
  rw [State.feedOf_modFeed_self, last]

/-! ### A unit in SETTLING -/

/-- In SETTLING nothing is released (R105). -/
theorem releaseCheck_of_settling (h : (s.feedOf l).engine = .settling) : releaseCheck l s = s := by
  refine releaseCheck_of_not_mayRelease (Bool.eq_false_iff.mpr fun may => ?_)
  obtain ⟨-, -, ready, -⟩ := mayRelease_iff.mp may
  rw [h] at ready
  cases ready

/-- In SETTLING a change of the rams changes no more than the line's hold set (R105, R115). -/
theorem ramChange_of_settling (h : (s.feedOf l).engine = .settling) :
    ∃ x, ((ramChange l s).feedOf l) = { s.feedOf l with holds := x } := by
  have changed (c : HoldCause) (b : Bool) :
      (s.modFeed l fun f => { f with holds := f.holds.set c b }).feedOf l =
        { s.feedOf l with holds := (s.feedOf l).holds.set c b } := State.feedOf_modFeed_self ..
  have evaluated : ∃ x, (evalNoRam l s).feedOf l = { s.feedOf l with holds := x } := by
    unfold evalNoRam removeHold addHold
    split
    · split
      · rw [releaseCheck_of_settling (by rw [changed]; exact h)]
        exact ⟨_, changed .noRam false⟩
      · exact ⟨_, rfl⟩
    · split
      · exact ⟨_, rfl⟩
      · rw [abortStroke_of_idle (by rw [changed]; simp [h])]
        exact ⟨_, changed .noRam true⟩
  obtain ⟨x, hx⟩ := evaluated
  exact ⟨x, by rw [ramChange, releaseCheck_of_settling (by rw [hx]; exact h), hx]⟩

end

/-! ### A stroke that times out (R104) -/

/-- What a timed-out stroke leaves: its line's engine in SETTLING, and a ram with a position channel FAULTED and told of. -/
structure TimedOut (l : Line) (ram : Nat) (a : Actuator) (s t : State) : Prop where
  feed : ∃ x, t.feedOf l = { (s.feedOf l).toSettling with holds := x }
  unread : a.position = none → (t.actuator ram).map (·.ram) = some a.ram
  read : a.position ≠ none → (t.actuator ram).map (·.ram) = some .faulted ∧
    t.HasSet .strokeTimeout ⟨some l, s.plantTime, a.number⟩

section
variable {l : Line} {ram : Nat} {a : Actuator} {s : State} (record : s.actuator ram = some a)
include record

theorem strokeTimesOut_of_unread (h : a.position = none) : strokeTimesOut l ram s = s.modFeed l Feed.toSettling := by
  have kept : (s.modFeed l Feed.toSettling).actuator ram = some a := record
  unfold strokeTimesOut
  dsimp only
  rw [kept]
  exact if_neg (by simp [h])

theorem strokeTimesOut_of_read (h : a.position ≠ none) : strokeTimesOut l ram s =
    setCause .strokeTimeout (some l) a.number (originate ram .stop 0 .urgent
      (ramChange l ((s.modFeed l Feed.toSettling).setActuator ram (some { a with ram := .faulted })))) := by
  have kept : (s.modFeed l Feed.toSettling).actuator ram = some a := record
  unfold strokeTimesOut
  dsimp only
  rw [kept]
  exact if_pos (Option.isSome_iff_ne_none.mpr h)

theorem timedOut_strokeTimesOut (sized : s.attention.causes.length = 15) : TimedOut l ram a s (strokeTimesOut l ram s) := by
  have settled : (s.modFeed l Feed.toSettling).feedOf l = (s.feedOf l).toSettling := State.feedOf_modFeed_self ..
  by_cases h : a.position = none
  · rw [strokeTimesOut_of_unread record h]
    exact ⟨⟨_, settled⟩, fun _ => congrArg (Option.map _) record, fun hr => absurd h hr⟩
  · rw [strokeTimesOut_of_read record h]
    generalize faulted : (s.modFeed l Feed.toSettling).setActuator ram (some { a with ram := .faulted }) = f
    have feed : f.feedOf l = (s.feedOf l).toSettling := faulted ▸ settled
    have state : (f.actuator ram).map (·.ram) = some .faulted := by
      have placed := (List.getElem?_eq_some_iff.mp (State.getElem?_of_actuator record)).1
      rw [← faulted, State.actuator_setActuator, if_pos ⟨rfl, placed⟩]
      rfl
    obtain ⟨x, hx⟩ := ramChange_of_settling (l := l) (s := f) (by rw [feed]; rfl)
    have follows {P : State → Prop} (hp : Plain P) (hf : P f) : P (originate ram .stop 0 .urgent (ramChange l f)) :=
      hp.originateAt _ _ _ _ (hp.ramChange l hf)
    have same := follows (calm_sameActuators f).toPlain (sameActuators_refl f)
    have causes := (follows (plain_sameTrips f) ⟨rfl, rfl, fun _ _ => rfl⟩).length
    have time : (originate ram .stop 0 .urgent (ramChange l f)).plantTime = s.plantTime := by
      have rest := follows (P := fun u => u.lessPlant = f.lessPlant) (calm_lessPlant f).toPlain rfl
      refine (congrArg (fun u => u.plantTime) rest).trans ?_
      rw [← faulted]
      rfl
    refine ⟨⟨x, ?_⟩, fun hn => absurd hn h, fun _ => ⟨(same.ram ram).trans state, ?_⟩⟩
    · refine Eq.trans ?_ (feed ▸ hx)
      exact feedOf_originate ram .stop 0 .urgent _ l
    · rw [← time]
      refine hasSet_setCause (causes.trans ?_) _ _ _
      rw [← faulted]
      exact sized

end

theorem TimedOut.noticed {l : Line} {ram : Nat} {a : Actuator} {s t : State} (h : TimedOut l ram a s t) (before : State) :
    TimedOut l ram a s (noticesSince before t) := by
  have rest := lessNotices_noticesSince before t
  have feed : (noticesSince before t).feedOf l = t.feedOf l := congrArg (fun u => u.feed.get l) rest
  have actuator : (noticesSince before t).actuator ram = t.actuator ram :=
    congrArg (fun u => u.actuators.getD ram none) rest
  refine ⟨feed ▸ h.feed, fun hn => actuator ▸ h.unread hn, fun hr => ?_⟩
  obtain ⟨state, set, event⟩ := h.read hr
  refine ⟨actuator ▸ state, ?_, ?_⟩
  · exact (noticesSince_keeps before t (by decide) CauseRecord.status fun _ => rfl).trans set
  · exact (noticesSince_keeps before t (by decide) CauseRecord.held fun _ => rfl).trans event

end Sys2Proof.Machine
end

section
/-! The statement on second ticks at a feed admission unit. -/

namespace Sys2Proof.Machine

/-- Settles O18: decay and expiry, then the engine's count by its state, then the release check. -/
theorem feedTickEvents : Obligations.FeedTickEvents := by
  intro l s released owed
  refine ⟨fun expired ready => ?_, fun settling last => ?_, fun ram target a flying last record sized => ?_⟩
  · have falls : ((s.feedOf l).queue.any fun e => e.deadline < s.plantTime) = true := by simpa using expired
    refine congrArg Host.Outcome.next ((tickBrings_of_owed released owed falls).trans ((takeTick_feed l _).trans ?_))
    rw [engineCount_of_ready (by rw [feedOf_burnt]; exact ready)]
    exact noticesSince_congr rfl _
  · have falls : decide ((s.feedOf l).engine = .settling ∧ (s.feedOf l).settleCount ≤ 1) = true :=
      decide_eq_true ⟨settling, last.le⟩
    refine congrArg Host.Outcome.next ((tickBrings_of_owed released owed falls).trans ((takeTick_feed l _).trans ?_))
    rw [engineCount_of_settled (by rw [feedOf_burnt]; exact settling) (by rw [feedOf_burnt]; exact last), feedOf_burnt]
    cases l <;> exact noticesSince_congr rfl _
  · have falls : (match (s.feedOf l).engine with
        | .inStroke _ _ => decide ((s.feedOf l).timeoutCount ≤ 1)
        | _ => false) = true := by
      rw [flying]
      exact decide_eq_true last.le
    generalize hs : { s with owedTick := s.owedTick.erase (.feed l) } = u
    have unit : (u.burnt l).feedOf l = _ := Eq.trans (by rw [← hs]; cases l <;> rfl) (feedOf_burnt s l)
    have counted := engineCount_of_timeout (l := l) (s := u.burnt l) (by rw [unit]; exact flying)
      (by rw [unit]; exact last)
    have out := timedOut_strokeTimesOut (l := l) (ram := ram)
      (s := (u.burnt l).modFeed l fun f => { f with timeoutCount := f.timeoutCount - 1 }) (by rw [← hs]; exact record)
      (by rw [← hs]; exact sized)
    obtain ⟨x, settling⟩ := out.feed
    rw [← counted] at out settling
    have idle : releaseCheck l (engineCount l (u.burnt l)) = engineCount l (u.burnt l) :=
      releaseCheck_of_settling (by rw [settling]; rfl)
    have executed : exec (.strokeTimeout l) s = .next (noticesSince u (engineCount l (u.burnt l))) := by
      refine congrArg Host.Outcome.next ((tickBrings_of_owed released owed falls).trans ?_)
      rw [hs, takeTick_feed, idle]
    have noticed := out.noticed u
    obtain ⟨x, feed⟩ := noticed.feed
    rw [State.feedOf_modFeed_self, unit] at feed
    refine ⟨_, executed, congrArg Feed.engine feed, congrArg Feed.settleCount feed, congrArg Feed.queue feed,
      congrArg Feed.bed feed, (congrArg Feed.rotation feed).trans rfl, noticed.unread, fun hr => ?_⟩
    obtain ⟨state, set, event⟩ := noticed.read hr
    exact ⟨state, set, event.trans (by rw [← hs]; rfl)⟩

end Sys2Proof.Machine
end

section
/-! SUPPORT. NEW_YEAR and CLEAR_ATTENTION from their argument areas (R131, R182). -/

namespace Sys2Proof.Machine

/-! ### NEW_YEAR (R131) -/

theorem newYearBody_of_code (l : Line) (tail : List Byte) (s : State) :
    newYearBody (u8 l.code :: tail) s = answer .done (s.modAverager l fun a => { a with minutes := 0 }) :=
  onLine_of_code l tail s _

/-! ### CLEAR_ATTENTION (R182) -/

/-- A cause's record once the causes of a set have been cleared. -/
def CauseRecord.afterClear (set i : Nat) (c : CauseRecord) : CauseRecord :=
  if set.testBit i && c.status then c.cleared else c

/-- The part with the named causes that are set cleared. -/
def attentionCleared (set : Nat) (s : State) : State :=
  { s with attention := { s.attention with
    causes := s.attention.causes.zipIdx.map fun (c, i) => c.afterClear set i } }

theorem cause_attentionCleared (set : Nat) (s : State) (c : Cause) :
    (attentionCleared set s).cause c = (s.cause c).afterClear set (c.code - 1) := by
  unfold State.cause attentionCleared
  simp only [List.getD_eq_getElem?_getD, List.getElem?_map, List.getElem?_zipIdx]
  cases s.attention.causes[c.code - 1]? with
  | some k => simp
  | none => simp [CauseRecord.afterClear, CauseRecord.clear]

/-- Clearing sets no cause. -/
theorem status_of_attentionCleared {set : Nat} {s : State} {c : Cause}
    (h : ((attentionCleared set s).cause c).status = true) : (s.cause c).status = true := by
  rw [cause_attentionCleared, CauseRecord.afterClear] at h
  split at h
  · exact absurd h (by simp [CauseRecord.cleared])
  · exact h

section
variable {set : Nat} (hs : set < 65536) {s : State}
include hs

theorem clearAttentionBody_beyond (h : 32768 ≤ set) : clearAttentionBody (be16 set) s = answer .refusedRange s := by
  have named : u16At (be16 set) 0 = set := u16At_be16 [] [] hs
  unfold clearAttentionBody
  rw [named]
  exact if_pos h

theorem clearAttentionBody_within (h : set < 32768) : clearAttentionBody (be16 set) s =
    if Cause.all.any fun c => causeNamed set c && (s.cause c).status then answer .done (attentionCleared set s)
    else answer .ignored s := by
  have named : u16At (be16 set) 0 = set := u16At_be16 [] [] hs
  unfold clearAttentionBody
  rw [named]
  exact if_neg (Nat.not_le.mpr h)

theorem clearAttentionBody_of_unset (h : set < 32768)
    (unset : ∀ c : Cause, set.testBit (c.code - 1) = true → (s.cause c).status = false) :
    clearAttentionBody (be16 set) s = answer .ignored s := by
  rw [clearAttentionBody_within hs h]
  refine if_neg fun present => ?_
  obtain ⟨c, -, both⟩ := List.any_eq_true.mp present
  obtain ⟨named, status⟩ := Bool.and_eq_true_iff.mp both
  exact absurd status (by simp [unset c named])

theorem clearAttentionBody_of_set (h : set < 32768)
    (present : ∃ c : Cause, set.testBit (c.code - 1) = true ∧ (s.cause c).status = true) :
    clearAttentionBody (be16 set) s = answer .done (attentionCleared set s) := by
  rw [clearAttentionBody_within hs h]
  obtain ⟨c, named, status⟩ := present
  exact if_pos (List.any_eq_true.mpr ⟨c, by cases c <;> decide, Bool.and_eq_true_iff.mpr ⟨named, status⟩⟩)

end

/-- The execution of a CLEAR_ATTENTION that clears: no cause is set, so its REPLY alone follows (R180, R187). -/
theorem serve_attentionCleared {row : Instr} {body : Request → State → Answer} {r : Request} {rest : List Request}
    {s : State} {set : Nat} (h : Ready row r rest s)
    (hb : body r (s.beginExecution rest) = answer .done (attentionCleared set (s.beginExecution rest))) :
    serve row body s = withReply r rest .done [] (attentionCleared set s) := by
  have unset := noticesSince_of_unset (before := s.beginExecution rest)
    (s := attentionCleared set (s.beginExecution rest)) fun _ => status_of_attentionCleared
  rw [serve_of_ready h, hb, Answer.noticed]
  dsimp only [answer]
  rw [unset]
  rfl

end Sys2Proof.Machine
end

section
/-! The statement on NEW_YEAR and CLEAR_ATTENTION. -/

namespace Sys2Proof.Machine

/-- Settles O48: each body by its argument, and no cause set that would build a NOTICE. -/
theorem newYearAndClearAttention : Obligations.NewYearAndClearAttention := by
  constructor
  · intro r rest l s ready named confirms
    obtain ⟨tail, args⟩ := List.head?_eq_some_iff.mp named
    have body : confirmed 1 newYearBody r (s.beginExecution rest) = answer .done
        ((s.beginExecution rest).modAverager l fun a => { a with minutes := 0 }) := by
      refine (confirmed_of_found (s := s.beginExecution rest) (by simp [args]) confirms).trans ?_
      rw [args]
      exact newYearBody_of_code l tail _
    exact congrArg Host.Outcome.next (serve_without_notices (u := s.modAverager l fun a => { a with minutes := 0 })
      ready body rfl)
  · intro r rest set s ready args hs _
    have body {a : Answer} (h : clearAttentionBody (be16 set) (s.beginExecution rest) = a) :
        sized 2 clearAttentionBody r (s.beginExecution rest) = a := by
      rw [sized_of_length _ (by rw [args]; rfl), args]
      exact h
    refine ⟨fun beyond => ?_, fun within unset => ?_, fun within present => ?_⟩
    · exact congrArg Host.Outcome.next (serve_refused ready (body (clearAttentionBody_beyond hs beyond)))
    · exact congrArg Host.Outcome.next (serve_refused ready (body (clearAttentionBody_of_unset hs within unset)))
    · have served := serve_attentionCleared ready (body (clearAttentionBody_of_set hs within present))
      refine ⟨_, congrArg Host.Outcome.next served, ⟨rfl, rfl, _, _, rfl⟩, fun c => ?_, rfl, rfl⟩
      refine (cause_attentionCleared set s c).trans ?_
      simp only [CauseRecord.afterClear, Bool.and_eq_true]
      rfl

end Sys2Proof.Machine
end

section
/-! SUPPORT. The exceedance log at a boundary close: what an entry opened, extended or closed leaves of the entries of one
pollutant's episode, and of those that are not OPEN (R129, R130). -/

namespace Sys2Proof.Machine

/-- What log work other than a pollutant's own half-hour close leaves: the pollutant's OPEN entries, and while the log has
room for `n` entries more, which is all that the work adds, those that are not OPEN. -/
structure LogKeeps (l : Line) (p : Pollutant) (n : Nat) (log log' : List LogEntry) : Prop where
  opens : ∀ e, e.isOpenEpisode l p = true → (e ∈ log' ↔ e ∈ log)
  closed : log.length + n ≤ 32 → ∀ e ∈ log, e.status ≠ .open → e ∈ log'
  grown : log'.length ≤ log.length + n

section
variable {l : Line} {p q : Pollutant} {n m : Nat} {log log' log'' : List LogEntry}

theorem LogKeeps.refl (l : Line) (p : Pollutant) (log : List LogEntry) : LogKeeps l p 0 log log :=
  ⟨fun _ _ => Iff.rfl, fun _ _ h _ => h, le_rfl⟩

theorem LogKeeps.trans (h : LogKeeps l p n log log') (h' : LogKeeps l p m log' log'') : LogKeeps l p (n + m) log log'' where
  opens e he := (h'.opens e he).trans (h.opens e he)
  closed room e he hs := by
    have := h.grown
    exact h'.closed (by omega) e (h.closed (by omega) e he hs) hs
  grown := by
    have := h.grown
    have := h'.grown
    omega

theorem LogKeeps.mono (h : LogKeeps l p n log log') (hn : n ≤ m) : LogKeeps l p m log log' :=
  ⟨h.opens, fun room => h.closed (by omega), h.grown.trans (by omega)⟩

theorem not_isOpenEpisode_of_other {e : LogEntry} (h : e.isOpenEpisode l p = true) (hq : q ≠ p) :
    e.isOpenEpisode l q = false :=
  Bool.eq_false_iff.mpr fun ho => by
    obtain ⟨-, -, -, hp⟩ := isOpenEpisode_iff.mp h
    obtain ⟨-, -, -, hp'⟩ := isOpenEpisode_iff.mp ho
    exact hq (hp'.symm.trans hp)

theorem not_isOpenEpisode_of_status {e : LogEntry} (h : e.status ≠ .open) : e.isOpenEpisode l p = false :=
  Bool.eq_false_iff.mpr fun ho => h (isOpenEpisode_iff.mp ho).1

/-- The removal that makes room takes no OPEN entry (R129). -/
theorem mem_logRoom_of_open {e : LogEntry} (h : e.status = .open) : e ∈ logRoom log ↔ e ∈ log := by
  unfold logRoom
  split
  · rfl
  · exact List.mem_eraseP_of_neg (by simp [h])

theorem logKeeps_open {e : LogEntry} (he : e.isOpenEpisode l p = false) : LogKeeps l p 1 log (logRoom log ++ [e]) where
  opens x hx := by
    have other : x ≠ e := by
      rintro rfl
      simp [he] at hx
    rw [List.mem_append, mem_logRoom_of_open (isOpenEpisode_iff.mp hx).1]
    simp [other]
  closed room x hx _ := by
    have hl : log.length < 32 := by omega
    unfold logRoom
    rw [if_pos hl]
    exact List.mem_append_left _ hx
  grown := by
    rw [List.length_append]
    exact Nat.add_le_add_right (logRoom_sublist log).length_le 1

/-- Another pollutant's episode extended or closed. -/
theorem logKeeps_map {f : LogEntry → LogEntry} (hq : q ≠ p) (same : ∀ e, (f e).pollutant = e.pollutant)
    (own : ∀ e, e.isOpenEpisode l q = false → f e = e) : LogKeeps l p 0 log (log.map f) where
  opens e he := by
    refine ⟨fun hm => ?_, fun hm => List.mem_map.mpr ⟨e, hm, own e (not_isOpenEpisode_of_other he hq)⟩⟩
    obtain ⟨x, hx, rfl⟩ := List.mem_map.mp hm
    cases ho : x.isOpenEpisode l q with
    | false => rwa [own x ho]
    | true =>
      obtain ⟨-, -, -, hp⟩ := isOpenEpisode_iff.mp he
      obtain ⟨-, -, -, hp'⟩ := isOpenEpisode_iff.mp ho
      exact absurd (hp'.symm.trans ((same x).symm.trans hp)) hq
  closed _ e hm hs := List.mem_map.mpr ⟨e, hm, own e (not_isOpenEpisode_of_status hs)⟩
  grown := (List.length_map f).le

end

end Sys2Proof.Machine
end

section
/-! SUPPORT. The half-hour close of one pollutant (R125, R126, R130): its record, and its episode in the log. -/

namespace Sys2Proof.Machine

/-! ### Writes of a pollutant's record -/

theorem State.pollutantOf_modPollutant_self (s : State) (l : Line) (p : Pollutant) (f : PollutantState → PollutantState) :
    (s.modPollutant l p f).pollutantOf l p = f (s.pollutantOf l p) := by
  rw [State.pollutantOf_modPollutant, if_pos ⟨rfl, rfl⟩]

theorem State.pollutantOf_modPollutant_ne (s : State) (l m : Line) {p q : Pollutant} (f : PollutantState → PollutantState)
    (h : q ≠ p) : (s.modPollutant l q f).pollutantOf m p = s.pollutantOf m p := by
  rw [State.pollutantOf_modPollutant, if_neg fun hp => h hp.2.symm]

theorem modPollutant_modPollutant (s : State) (l : Line) (p : Pollutant) (f g : PollutantState → PollutantState) :
    (s.modPollutant l p f).modPollutant l p g = s.modPollutant l p fun x => g (f x) := by
  cases l <;> cases p <;> rfl

theorem modPollutant_congr {s : State} {l : Line} {p : Pollutant} {f g : PollutantState → PollutantState}
    (h : f (s.pollutantOf l p) = g (s.pollutantOf l p)) : s.modPollutant l p f = s.modPollutant l p g :=
  congrArg (fun x => s.modAverager l fun a => { a with pollutants := a.pollutants.set p x }) h

/-! ### A half-hour's value and what it brings to the record (R125, R126) -/

/-- The half-hour value of a pollutant's block means. -/
def State.halfValue (s : State) (l : Line) (p : Pollutant) : Option Nat := halfHourValue (s.pollutantOf l p).means

theorem exceeds_eq (s : State) (l : Line) (p : Pollutant) :
    s.exceeds l p = (s.halfValue l p).any fun v => decide (s.lineLimit l (.hhLimit p) < (v : Int)) := by
  unfold State.exceeds State.halfValue
  cases halfHourValue (s.pollutantOf l p).means <;> rfl

/-- A ring with the half-hour that a boundary ends. -/
def ringWith (b : Nat) (v : Option Nat) (ring : List RingSlot) : List RingSlot :=
  ring.set (ringSlotOf b) ((v.map RingSlot.value).getD .invalid)

/-- The count of consecutive half-hours above the limit, as a close leaves it. -/
def State.exceedCount (s : State) (l : Line) (p : Pollutant) : Nat :=
  if (s.halfValue l p).isNone then (s.pollutantOf l p).exceed
  else if s.exceeds l p then satSucc 255 (s.pollutantOf l p).exceed
  else 0

/-- A pollutant's record at a half-hour close, before its episode is opened or closed. -/
def State.judgedRecord (s : State) (l : Line) (b : Nat) (p : Pollutant) : PollutantState :=
  { s.pollutantOf l p with
    means := [none, none, none]
    ring := ringWith b (s.halfValue l p) (s.pollutantOf l p).ring
    exceed := s.exceedCount l p }

def State.judged (s : State) (l : Line) (b : Nat) (p : Pollutant) : State :=
  s.modPollutant l p fun _ => s.judgedRecord l b p

section
variable {l : Line} {b v : Nat} {p : Pollutant} {s : State}

theorem pollutantOf_judged (l : Line) (b : Nat) (p : Pollutant) (s : State) :
    (s.judged l b p).pollutantOf l p = s.judgedRecord l b p := State.pollutantOf_modPollutant_self ..

theorem halfHourClose_of_none (h : s.halfValue l p = none) : halfHourClose l b p s = s.judged l b p := by
  have value : halfHourValue (s.pollutantOf l p).means = none := h
  unfold halfHourClose
  rw [value]
  refine modPollutant_congr ?_
  simp only [State.judgedRecord, State.exceedCount, ringWith, h]
  rfl

theorem halfHourClose_of_above (h : s.halfValue l p = some v) (above : s.exceeds l p = true) :
    halfHourClose l b p s = exceedEpisode l p b v (s.judged l b p) := by
  have value : halfHourValue (s.pollutantOf l p).means = some v := h
  have beyond : s.lineLimit l (.hhLimit p) < (v : Int) := by simpa [exceeds_eq, h] using above
  unfold halfHourClose
  rw [value]
  refine (if_pos beyond).trans (congrArg (exceedEpisode l p b v) ?_)
  refine (modPollutant_modPollutant s l p _ _).trans (modPollutant_congr ?_)
  simp only [State.judgedRecord, State.exceedCount, ringWith, h, above]
  rfl

theorem halfHourClose_of_within (h : s.halfValue l p = some v) (within : s.exceeds l p = false) :
    halfHourClose l b p s = closeEpisode l p b (s.judged l b p) := by
  have value : halfHourValue (s.pollutantOf l p).means = some v := h
  have held : ¬ s.lineLimit l (.hhLimit p) < (v : Int) := by simpa [exceeds_eq, h] using within
  unfold halfHourClose
  rw [value]
  refine (if_neg held).trans (congrArg (closeEpisode l p b) ?_)
  refine (modPollutant_modPollutant s l p _ _).trans (modPollutant_congr ?_)
  simp only [State.judgedRecord, State.exceedCount, ringWith, h, within]
  rfl

/-! ### The pollutant's episode (R126, R130) -/

/-- An entry of the log where a half-hour extends the pollutant's episode. -/
def LogEntry.extended (l : Line) (p : Pollutant) (v : Nat) (e : LogEntry) : LogEntry :=
  if e.isOpenEpisode l p then { e with peak := Nat.max e.peak v, halfHours := satSucc 255 e.halfHours } else e

/-- An entry of the log where a half-hour closes the pollutant's episode. -/
def LogEntry.ended (l : Line) (p : Pollutant) (b : Nat) (e : LogEntry) : LogEntry :=
  if e.isOpenEpisode l p then { e with status := .closed, finish := some b } else e

theorem LogEntry.pollutant_extended (e : LogEntry) : (e.extended l p v).pollutant = e.pollutant := by
  unfold LogEntry.extended
  split <;> rfl

theorem LogEntry.pollutant_ended (e : LogEntry) : (e.ended l p b).pollutant = e.pollutant := by
  unfold LogEntry.ended
  split <;> rfl

theorem LogEntry.extended_of_open {e : LogEntry} (h : e.isOpenEpisode l p = true) : e.extended l p v =
    { e with peak := Nat.max e.peak v, halfHours := satSucc 255 e.halfHours } := if_pos h

theorem LogEntry.extended_of_other {e : LogEntry} (h : e.isOpenEpisode l p = false) : e.extended l p v = e :=
  if_neg (by simp [h])

theorem LogEntry.ended_of_other {e : LogEntry} (h : e.isOpenEpisode l p = false) : e.ended l p b = e :=
  if_neg (by simp [h])

theorem LogEntry.not_open_ended (e : LogEntry) : (e.ended l p b).isOpenEpisode l p = false := by
  unfold LogEntry.ended
  split
  · exact not_isOpenEpisode_of_status (by simp)
  · rename_i h
    exact Bool.eq_false_iff.mpr h

/-- The entry of an episode that a half-hour above the limit opens. -/
def openedEntry (l : Line) (p : Pollutant) (b v n : Nat) : LogEntry :=
  ⟨n, l, p, .halfHour, .open, b - 1800, none, v, 1⟩

theorem isOpenEpisode_openedEntry (l : Line) (p : Pollutant) (b v n : Nat) :
    (openedEntry l p b v n).isOpenEpisode l p = true := isOpenEpisode_iff.mpr ⟨rfl, rfl, rfl, rfl⟩

theorem exceedEpisode_of_open {n : Nat} (h : (s.pollutantOf l p).openEpisode = some n) :
    exceedEpisode l p b v s = { s with log := s.log.map (LogEntry.extended l p v) } := by
  unfold exceedEpisode
  rw [h]
  rfl

theorem exceedEpisode_of_none (h : (s.pollutantOf l p).openEpisode = none) : exceedEpisode l p b v s =
    setCause .episodeOpened (some l) s.nextEntry
      { s.modPollutant l p fun x => { x with openEpisode := some s.nextEntry } with
      log := logRoom s.log ++ [openedEntry l p b v s.nextEntry]
      nextEntry := (s.nextEntry + 1) % 65536 } := by
  unfold exceedEpisode
  rw [h]
  rfl

theorem closeEpisode_of_open {n : Nat} (h : (s.pollutantOf l p).openEpisode = some n) : closeEpisode l p b s =
    { s.modPollutant l p fun x => { x with openEpisode := none } with log := s.log.map (LogEntry.ended l p b) } := by
  unfold closeEpisode
  rw [h]
  rfl

theorem closeEpisode_of_none (h : (s.pollutantOf l p).openEpisode = none) : closeEpisode l p b s = s := by
  unfold closeEpisode
  rw [h]

end

end Sys2Proof.Machine
end

section
/-! SUPPORT. What a half-hour close brings a pollutant, and what the closes of the other pollutants leave of it (R125,
R126, R129, R130). -/

namespace Sys2Proof.Machine

/-- How a half-hour close of a pollutant ends: not judged, within the limit without or with an episode open, or above it
with or without one. -/
inductive HalfHourStep (l : Line) (b : Nat) (p : Pollutant) (s : State) : State → Prop where
  | unjudged (value : s.halfValue l p = none) : HalfHourStep l b p s (s.judged l b p)
  | clear {v : Nat} (value : s.halfValue l p = some v) (within : s.exceeds l p = false)
      (episode : (s.pollutantOf l p).openEpisode = none) : HalfHourStep l b p s (s.judged l b p)
  | ended {v n : Nat} (value : s.halfValue l p = some v) (within : s.exceeds l p = false)
      (episode : (s.pollutantOf l p).openEpisode = some n) :
      HalfHourStep l b p s { s.modPollutant l p fun _ => { s.judgedRecord l b p with openEpisode := none } with
        log := s.log.map (LogEntry.ended l p b) }
  | extended {v n : Nat} (value : s.halfValue l p = some v) (above : s.exceeds l p = true)
      (episode : (s.pollutantOf l p).openEpisode = some n) :
      HalfHourStep l b p s { s.judged l b p with log := s.log.map (LogEntry.extended l p v) }
  | opened {v : Nat} (value : s.halfValue l p = some v) (above : s.exceeds l p = true)
      (episode : (s.pollutantOf l p).openEpisode = none) :
      HalfHourStep l b p s (setCause .episodeOpened (some l) s.nextEntry
        { s.modPollutant l p fun _ => { s.judgedRecord l b p with openEpisode := some s.nextEntry } with
          log := logRoom s.log ++ [openedEntry l p b v s.nextEntry]
          nextEntry := (s.nextEntry + 1) % 65536 })

theorem halfHourClose_step (l : Line) (b : Nat) (p : Pollutant) (s : State) :
    HalfHourStep l b p s (halfHourClose l b p s) := by
  have episode : ((s.judged l b p).pollutantOf l p).openEpisode = (s.pollutantOf l p).openEpisode :=
    (congrArg PollutantState.openEpisode (pollutantOf_judged l b p s)).trans rfl
  have rewritten (x : Option Nat) : ((s.judged l b p).modPollutant l p fun y => { y with openEpisode := x }) =
      s.modPollutant l p fun _ => { s.judgedRecord l b p with openEpisode := x } := modPollutant_modPollutant s l p _ _
  cases value : s.halfValue l p with
  | none =>
    rw [halfHourClose_of_none value]
    exact .unjudged value
  | some v =>
    cases above : s.exceeds l p with
    | true =>
      rw [halfHourClose_of_above value above]
      cases was : (s.pollutantOf l p).openEpisode with
      | some n =>
        rw [exceedEpisode_of_open (episode.trans was)]
        exact .extended value above was
      | none =>
        rw [exceedEpisode_of_none (episode.trans was), rewritten]
        exact .opened value above was
    | false =>
      rw [halfHourClose_of_within value above]
      cases was : (s.pollutantOf l p).openEpisode with
      | some n =>
        rw [closeEpisode_of_open (episode.trans was), rewritten]
        exact .ended value above was
      | none =>
        rw [closeEpisode_of_none (episode.trans was)]
        exact .clear value above was

/-! ### What the work of others leaves -/

/-- What work other than a pollutant's own closes leaves of that pollutant, with `n` entries at most added to the log. -/
structure Elsewhere (l : Line) (p : Pollutant) (n : Nat) (s t : State) : Prop where
  limits : t.limits = s.limits
  record : t.pollutantOf l p = s.pollutantOf l p
  log : LogKeeps l p n s.log t.log
  sized : t.attention.causes.length = s.attention.causes.length
  told : (s.cause .episodeOpened).status = true → (t.cause .episodeOpened).status = true

section
variable {l : Line} {b n m k : Nat} {p q : Pollutant} {s t u : State}

theorem Elsewhere.refl (l : Line) (p : Pollutant) (s : State) : Elsewhere l p 0 s s :=
  ⟨rfl, rfl, .refl l p s.log, rfl, id⟩

theorem Elsewhere.trans (h : Elsewhere l p n s t) (h' : Elsewhere l p m t u) : Elsewhere l p (n + m) s u :=
  ⟨h'.limits.trans h.limits, h'.record.trans h.record, h.log.trans h'.log, h'.sized.trans h.sized,
    fun ht => h'.told (h.told ht)⟩

theorem Elsewhere.mono (h : Elsewhere l p n s t) (hn : n ≤ m) : Elsewhere l p m s t :=
  ⟨h.limits, h.record, h.log.mono hn, h.sized, h.told⟩

/-- Actions taken in turn, each of them work of others. -/
theorem Elsewhere.inTurn {α : Type} {xs : List α} {act : α → State → State}
    (ha : ∀ x ∈ xs, ∀ s, Elsewhere l p k s (act x s)) (s : State) : Elsewhere l p (xs.length * k) s (inTurn xs act s) := by
  induction xs generalizing s with
  | nil =>
    rw [List.length_nil, Nat.zero_mul]
    exact .refl l p s
  | cons x rest ih =>
    have first := ha x List.mem_cons_self s
    have later := ih (fun y hy => ha y (List.mem_cons_of_mem x hy)) (act x s)
    rw [List.length_cons, Nat.succ_mul, Nat.add_comm]
    exact first.trans later

/-- A status that is set stays set at a setting event of any cause. -/
theorem status_setCause {c c' : Cause} (line : Option Line) (d : Nat) (h : (s.cause c').status = true) :
    ((setCause c line d s).cause c').status = true := by
  by_cases hc : c' = c
  · subst hc
    by_cases hl : c'.code - 1 < s.attention.causes.length
    · simp [setCause, State.cause, State.modCause, List.getElem?_set_self hl]
    · simpa [setCause, State.cause, State.modCause, List.set_eq_of_length_le (Nat.not_lt.mp hl)] using h
  · rwa [cause_setCause_ne hc]

theorem elsewhere_modPollutant (f : PollutantState → PollutantState) (h : q ≠ p) :
    Elsewhere l p 0 s (s.modPollutant l q f) :=
  ⟨rfl, State.pollutantOf_modPollutant_ne s l l f h, .refl l p s.log, rfl, id⟩

theorem elsewhere_log {log : List LogEntry} (h : LogKeeps l p n s.log log) : Elsewhere l p n s { s with log := log } :=
  ⟨rfl, rfl, h, rfl, id⟩

/-- An entry opened under the next entry number, and the cause that tells of it. -/
theorem elsewhere_opened (e : LogEntry) (h : e.isOpenEpisode l p = false) (c : Cause) (d x : Nat) :
    Elsewhere l p 1 s (setCause c (some l) d { s with log := logRoom s.log ++ [e], nextEntry := x }) :=
  ⟨rfl, rfl, logKeeps_open h, List.length_set .., fun ht => status_setCause (some l) d ht⟩

theorem elsewhere_halfHourClose (b : Nat) (h : q ≠ p) (s : State) : Elsewhere l p 1 s (halfHourClose l b q s) := by
  have judged (x : PollutantState) := elsewhere_modPollutant (l := l) (s := s) (fun _ => x) h
  have widened {t : State} (ht : Elsewhere l p 0 s t) : Elsewhere l p 1 s t := ht.mono zero_le_one
  have step := halfHourClose_step l b q s
  generalize halfHourClose l b q s = t at step
  cases step with
  | unjudged _ => exact widened (judged _)
  | clear _ _ _ => exact widened (judged _)
  | ended _ _ _ =>
    exact widened ((judged _).trans
      (elsewhere_log (logKeeps_map h (fun e => e.pollutant_ended) fun _ => LogEntry.ended_of_other)))
  | extended _ _ _ =>
    exact widened ((judged _).trans
      (elsewhere_log (logKeeps_map h (fun e => e.pollutant_extended) fun _ => LogEntry.extended_of_other)))
  | @opened v _ _ _ =>
    have other : (openedEntry l q b v s.nextEntry).isOpenEpisode l p = false :=
      not_isOpenEpisode_of_other (isOpenEpisode_openedEntry l q b v _) h.symm
    exact (judged { s.judgedRecord l b q with openEpisode := some s.nextEntry }).trans (elsewhere_opened _ other _ _ _)

theorem elsewhere_blockClose (b : Nat) (h : q ≠ p) (s : State) : Elsewhere l p 0 s (blockClose l b q s) :=
  elsewhere_modPollutant _ h

end

end Sys2Proof.Machine
end

section
/-! SUPPORT. The parts of a boundary close for one pollutant in the order of R123: its block, its half-hour and its day, each
among the closes of the others. -/

namespace Sys2Proof.Machine

/-! ### Reasons and saturation tests (R113, R134) -/

/-- The plant's units keep the number of the causes in their own work. -/
theorem calm_causesSized (n : Nat) : Calm fun s => s.attention.causes.length = n where
  choices _ _ _ h := h
  originate s pr c h := (causes_originateCommand pr c s).trans h
  rewrite s n b h := (congrArg (fun t => t.attention.causes.length) (rewrite_eq s n b)).trans h
  feed _ _ _ _ h := h
  dispatch _ _ _ h := h
  runback _ _ _ h := h
  cause s c l d _ h := (causes_setCause c l d s).trans h
  trip _ _ _ h := h

section
variable {l : Line} {b n m : Nat} {p q : Pollutant} {s t u : State}

theorem elsewhere_postReason (r : EmissionReason) : Elsewhere l p 0 s (postReason l r s) := by
  have rest := lessFeed_postReason l r s
  have log : (postReason l r s).log = s.log := read_of_erased State.lessFeed (fun _ => rfl) rest
  have told : (postReason l r s).cause .episodeOpened = s.cause .episodeOpened :=
    (calm_routineCause (by decide) (s.cause .episodeOpened)).postReason l r rfl
  exact ⟨limits_of_lessFeed rest, read_of_erased State.lessFeed (read := (State.pollutantOf · l p)) (fun _ => rfl) rest,
    log ▸ .refl l p s.log, (calm_causesSized s.attention.causes.length).postReason l r rfl, fun h => told ▸ h⟩

theorem elsewhere_modAverager {g : Averager → Averager} (h : ∀ a, (g a).pollutants = a.pollutants) :
    Elsewhere l p 0 s (s.modAverager l g) := by
  have averager : (s.modAverager l g).averagerOf l = g (s.averagerOf l) := by
    rw [State.averagerOf_modAverager, if_pos rfl]
  exact ⟨rfl, congrArg (·.get p) ((congrArg Averager.pollutants averager).trans (h (s.averagerOf l))),
    .refl l p s.log, rfl, id⟩

theorem elsewhere_ite {c : Prop} [Decidable c] (ht : c → Elsewhere l p n s t) (hu : ¬c → Elsewhere l p n s u) :
    Elsewhere l p n s (if c then t else u) := by
  split
  · exact ht ‹_›
  · exact hu ‹_›

theorem elsewhere_postBudget : Elsewhere l p 0 s (postBudget l s) :=
  elsewhere_ite (fun _ => elsewhere_postReason .budget) fun _ => .refl l p s

theorem elsewhere_saturationTest (b : Nat) (r : Reagent) : Elsewhere l p 0 s (saturationTest l b r s) := by
  have put (n : Nat) : Elsewhere l p 0 s (s.modAverager l fun a => { a with saturation := a.saturation.set r n }) :=
    elsewhere_modAverager fun _ => rfl
  exact elsewhere_ite (fun _ => elsewhere_ite (fun _ => (put _).trans (elsewhere_postReason .saturation)) fun _ => put _)
    fun _ => elsewhere_ite (fun _ => .refl l p s) fun _ => put 0

/-! ### The day close (R128) -/

/-- The mean of a ring's values. -/
def dayMean (ring : List RingSlot) : Nat := (ringValues ring).sum / (ringValues ring).length

/-- Whether a day's values are enough and their mean above the daily limit. -/
def State.dayAbove (s : State) (l : Line) (p : Pollutant) : Prop :=
  1 ≤ (ringValues (s.pollutantOf l p).ring).length ∧
    s.limit (.plant .dayMinValid) ≤ ((ringValues (s.pollutantOf l p).ring).length : Int) ∧
    s.lineLimit l (.dayLimit p) < (dayMean (s.pollutantOf l p).ring : Int)

/-- The entry of a daily value. -/
def dailyEntry (l : Line) (p : Pollutant) (b n : Nat) (ring : List RingSlot) : LogEntry :=
  ⟨n, l, p, .daily, .closed, b - 86400, some b, dayMean ring, (ringValues ring).length⟩

/-- The log entry of a day above the limit. -/
def State.dayLogged (s : State) (l : Line) (b : Nat) (p : Pollutant) : State :=
  setCause .dailyExceeded (some l) s.nextEntry { s with
    log := logRoom s.log ++ [dailyEntry l p b s.nextEntry (s.pollutantOf l p).ring]
    nextEntry := (s.nextEntry + 1) % 65536 }

theorem dayClose_of_above (b : Nat) (h : s.dayAbove l p) : dayClose l b p s =
    (s.dayLogged l b p).modPollutant l p fun x => { x with ring := List.replicate 48 .empty } :=
  congrArg (State.modPollutant · l p fun x => { x with ring := List.replicate 48 .empty }) (if_pos h)

theorem dayClose_of_not_above (b : Nat) (h : ¬ s.dayAbove l p) : dayClose l b p s =
    s.modPollutant l p fun x => { x with ring := List.replicate 48 .empty } :=
  congrArg (State.modPollutant · l p fun x => { x with ring := List.replicate 48 .empty }) (if_neg h)

/-- A day close writes its pollutant's ring; else it is work of no pollutant's own. -/
theorem dayClose_elsewhere (l : Line) (p q : Pollutant) (b : Nat) (s : State) :
    ∃ t, Elsewhere l p 1 s t ∧ (s.dayAbove l q → ∃ n, dailyEntry l q b n (s.pollutantOf l q).ring ∈ t.log) ∧
      dayClose l b q s = t.modPollutant l q fun x => { x with ring := List.replicate 48 .empty } := by
  by_cases h : s.dayAbove l q
  · exact ⟨s.dayLogged l b q, elsewhere_opened _ (not_isOpenEpisode_of_status (by simp [dailyEntry])) _ _ _,
      fun _ => ⟨s.nextEntry, List.mem_append_right _ (List.mem_singleton_self _)⟩, dayClose_of_above b h⟩
  · exact ⟨s, (Elsewhere.refl l p s).mono zero_le_one, fun ha => absurd ha h,
      dayClose_of_not_above b h⟩

theorem elsewhere_dayClose (b : Nat) (h : q ≠ p) (s : State) : Elsewhere l p 1 s (dayClose l b q s) := by
  obtain ⟨t, others, -, closed⟩ := dayClose_elsewhere l p q b s
  rw [closed]
  exact others.trans (elsewhere_modPollutant _ h)

/-! ### The half-hour close -/

/-- What a half-hour close at a boundary brings one pollutant of a line, with `n` entries at most added to the log. -/
structure HalfHourClosed (l : Line) (b : Nat) (p : Pollutant) (n : Nat) (ring : List RingSlot) (s t : State) : Prop where
  record : ∃ x, t.pollutantOf l p = { s.judgedRecord l b p with ring := ring, openEpisode := x }
  grown : t.log.length ≤ s.log.length + n
  unjudged : s.halfValue l p = none → (t.pollutantOf l p).openEpisode = (s.pollutantOf l p).openEpisode
  within : s.halfValue l p ≠ none → s.exceeds l p = false → (t.pollutantOf l p).openEpisode = none ∧
    ((s.pollutantOf l p).openEpisode ≠ none → (∀ e ∈ t.log, e.isOpenEpisode l p = false) ∧
      (s.log.length + n ≤ 32 → ∀ e ∈ s.log, e.isOpenEpisode l p = true →
        { e with status := .closed, finish := some b } ∈ t.log))
  opened : ∀ v, s.halfValue l p = some v → s.exceeds l p = true → (s.pollutantOf l p).openEpisode = none →
    ∃ n, (t.pollutantOf l p).openEpisode = some n ∧ openedEntry l p b v n ∈ t.log ∧
      (s.attention.causes.length = 15 → (t.cause .episodeOpened).status = true)
  extended : ∀ v, s.halfValue l p = some v → s.exceeds l p = true → ∀ n, (s.pollutantOf l p).openEpisode = some n →
    (t.pollutantOf l p).openEpisode = some n ∧ ∀ e ∈ s.log, e.isOpenEpisode l p = true → e.extended l p v ∈ t.log

theorem halfHourClosed_halfHourClose (l : Line) (b : Nat) (p : Pollutant) (s : State) :
    HalfHourClosed l b p 1 (s.judgedRecord l b p).ring s (halfHourClose l b p s) := by
  have written (x : PollutantState) : (s.modPollutant l p fun _ => x).pollutantOf l p = x :=
    State.pollutantOf_modPollutant_self ..
  have step := halfHourClose_step l b p s
  generalize halfHourClose l b p s = t at step
  cases step with
  | unjudged value =>
    exact {
      record := ⟨_, written _⟩
      grown := Nat.le_succ _
      unjudged := fun _ => (congrArg PollutantState.openEpisode (written _)).trans rfl
      within := by simp [value]
      opened := by simp [value]
      extended := by simp [value] }
  | clear value within episode =>
    exact {
      record := ⟨_, written _⟩
      grown := Nat.le_succ _
      unjudged := by simp [value]
      within := fun _ _ => ⟨(congrArg PollutantState.openEpisode (written _)).trans episode, fun h => absurd episode h⟩
      opened := by simp [within]
      extended := by simp [within] }
  | ended value within episode =>
    have record := written { s.judgedRecord l b p with openEpisode := none }
    exact {
      record := ⟨none, record⟩
      grown := (List.length_map _).le.trans (Nat.le_succ _)
      unjudged := by simp [value]
      within := fun _ _ => by
        refine ⟨congrArg PollutantState.openEpisode record, fun _ => ⟨fun e he => ?_, fun _ e he ho => ?_⟩⟩
        · obtain ⟨x, -, rfl⟩ := List.mem_map.mp he
          exact x.not_open_ended
        · exact List.mem_map.mpr ⟨e, he, if_pos ho⟩
      opened := by simp [within]
      extended := by simp [within] }
  | extended value above episode =>
    exact {
      record := ⟨_, written _⟩
      grown := (List.length_map _).le.trans (Nat.le_succ _)
      unjudged := by simp [value]
      within := by simp [above]
      opened := by simp [episode]
      extended := fun v hv _ n hn => by
        cases value.symm.trans hv
        exact ⟨(congrArg PollutantState.openEpisode (written _)).trans hn, fun e he _ => List.mem_map_of_mem he⟩ }
  | @opened v value above episode =>
    have record := written { s.judgedRecord l b p with openEpisode := some s.nextEntry }
    have told (hl : s.attention.causes.length = 15) := hasSet_setCause hl .episodeOpened (some l) s.nextEntry
    exact {
      record := ⟨some s.nextEntry, record⟩
      grown := List.length_append.le.trans (Nat.add_le_add_right (logRoom_sublist s.log).length_le 1)
      unjudged := by simp [value]
      within := by simp [above]
      opened := fun w hw _ _ => by
        cases value.symm.trans hw
        exact ⟨s.nextEntry, congrArg PollutantState.openEpisode record,
          List.mem_append_right _ (List.mem_singleton_self _), fun hl => (told hl).1⟩
      extended := by simp [episode] }

/-! ### Its place among the closes of the others -/

theorem Elsewhere.halfValue (h : Elsewhere l p n s t) : t.halfValue l p = s.halfValue l p := by
  unfold State.halfValue
  rw [h.record]

theorem Elsewhere.exceeds (h : Elsewhere l p n s t) : t.exceeds l p = s.exceeds l p := by
  rw [exceeds_eq, exceeds_eq, h.halfValue]
  unfold State.lineLimit
  rw [State.limit_congr h.limits]

theorem Elsewhere.judgedRecord (h : Elsewhere l p n s t) : t.judgedRecord l b p = s.judgedRecord l b p := by
  unfold State.judgedRecord State.exceedCount
  rw [h.halfValue, h.exceeds, h.record]

/-- Work of others before the close. -/
theorem HalfHourClosed.before {ring : List RingSlot} (h : HalfHourClosed l b p m ring t u) (he : Elsewhere l p n s t) :
    HalfHourClosed l b p (n + m) ring s u where
  record := he.judgedRecord ▸ h.record
  grown := by
    have := h.grown
    have := he.log.grown
    omega
  unjudged value := (h.unjudged (he.halfValue.trans value)).trans (congrArg PollutantState.openEpisode he.record)
  within value held := by
    obtain ⟨shut, ended⟩ := h.within (he.halfValue ▸ value) (he.exceeds.trans held)
    refine ⟨shut, fun was => ?_⟩
    obtain ⟨closed, entry⟩ := ended (he.record ▸ was)
    refine ⟨closed, fun room e hm ho => entry ?_ e ((he.log.opens e ho).mpr hm) ho⟩
    have := he.log.grown
    omega
  opened v value above shut := by
    obtain ⟨x, episode, entry, told⟩ := h.opened v (he.halfValue.trans value) (he.exceeds.trans above) (he.record ▸ shut)
    exact ⟨x, episode, entry, fun hl => told (he.sized.trans hl)⟩
  extended v value above x was := by
    obtain ⟨episode, entry⟩ := h.extended v (he.halfValue.trans value) (he.exceeds.trans above) x (he.record ▸ was)
    exact ⟨episode, fun e hm ho => entry e ((he.log.opens e ho).mpr hm) ho⟩

/-- An entry extended is the pollutant's OPEN entry still. -/
theorem LogEntry.isOpenEpisode_extended {v : Nat} {e : LogEntry} (h : e.isOpenEpisode l p = true) :
    (e.extended l p v).isOpenEpisode l p = true := by
  rw [LogEntry.extended, if_pos h]
  exact h

/-- Work after the close that leaves the record but for the ring, and the log as other work does. -/
theorem HalfHourClosed.after {ring ring' : List RingSlot} (h : HalfHourClosed l b p n ring s t)
    (record : u.pollutantOf l p = { t.pollutantOf l p with ring := ring' }) (log : LogKeeps l p m t.log u.log)
    (told : (t.cause .episodeOpened).status = true → (u.cause .episodeOpened).status = true) :
    HalfHourClosed l b p (n + m) ring' s u where
  record := by
    obtain ⟨x, hx⟩ := h.record
    exact ⟨x, record.trans (congrArg (fun y : PollutantState => { y with ring := ring' }) hx)⟩
  grown := by
    have := h.grown
    have := log.grown
    omega
  unjudged value := (congrArg PollutantState.openEpisode record).trans (h.unjudged value)
  within value held := by
    obtain ⟨shut, ended⟩ := h.within value held
    refine ⟨(congrArg PollutantState.openEpisode record).trans shut, fun was => ?_⟩
    obtain ⟨closed, entry⟩ := ended was
    refine ⟨fun e hm => Bool.eq_false_iff.mpr fun ho => ?_, fun room e hm ho => ?_⟩
    · exact Bool.eq_false_iff.mp (closed e ((log.opens e ho).mp hm)) ho
    · have := h.grown
      exact log.closed (by omega) _ (entry (by omega) e hm ho) nofun
  opened v value above shut := by
    obtain ⟨x, episode, entry, set⟩ := h.opened v value above shut
    exact ⟨x, (congrArg PollutantState.openEpisode record).trans episode,
      (log.opens _ (isOpenEpisode_openedEntry l p b v x)).mpr entry, fun hl => told (set hl)⟩
  extended v value above x was := by
    obtain ⟨episode, entry⟩ := h.extended v value above x was
    exact ⟨(congrArg PollutantState.openEpisode record).trans episode,
      fun e hm ho => (log.opens _ (e.isOpenEpisode_extended ho)).mpr (entry e hm ho)⟩

theorem HalfHourClosed.elsewhere {ring : List RingSlot} (h : HalfHourClosed l b p n ring s t) (he : Elsewhere l p m t u) :
    HalfHourClosed l b p (n + m) ring s u := by
  obtain ⟨x, hx⟩ := h.record
  refine h.after (he.record.trans ?_) he.log he.told
  rw [hx]

/-- The NOTICEs at the end of the event. -/
theorem HalfHourClosed.noticed {ring : List RingSlot} (h : HalfHourClosed l b p n ring s t)
    (rest : u.lessNotices = t.lessNotices)
    (told : (u.cause .episodeOpened).status = (t.cause .episodeOpened).status) : HalfHourClosed l b p n ring s u := by
  obtain ⟨x, hx⟩ := h.record
  have record : u.pollutantOf l p = t.pollutantOf l p :=
    read_of_erased (read := (State.pollutantOf · l p)) State.lessNotices (fun _ => rfl) rest
  have log : u.log = t.log := read_of_erased State.lessNotices (fun _ => rfl) rest
  exact h.after (m := 0) (record.trans (by rw [hx])) (log ▸ LogKeeps.refl l p t.log) fun set => told.trans set

/-- The pollutant's own day close empties its ring. -/
theorem HalfHourClosed.dayClose {ring : List RingSlot} (h : HalfHourClosed l b p n ring s t) :
    HalfHourClosed l b p (n + 1) (List.replicate 48 .empty) s (dayClose l b p t) := by
  obtain ⟨x, others, -, closed⟩ := dayClose_elsewhere l p p b t
  rw [closed]
  refine h.after ((State.pollutantOf_modPollutant_self ..).trans ?_) others.log others.told
  rw [others.record]

end

end Sys2Proof.Machine
end

section
/-! SUPPORT. A boundary close as a whole (R123): its closes in turn, the blocks of the accounts that it leaves, the minutes
used and the EMISSION reasons. -/

namespace Sys2Proof.Machine

/-! ### Closes in turn -/

/-- The pollutants before and after one of them in the order of every close. -/
theorem pollutants_around (p : Pollutant) : ∃ before after, Pollutant.all = before ++ p :: after ∧
    p ∉ before ∧ p ∉ after ∧ before.length + after.length = 5 := by
  obtain ⟨before, after, all⟩ := List.append_of_mem (show p ∈ Pollutant.all by cases p <;> decide)
  have distinct : (before ++ p :: after).Nodup := all ▸ (by decide)
  obtain ⟨unmet, -⟩ := List.nodup_cons.mp (List.nodup_middle.mp distinct)
  have length := congrArg List.length all
  rw [List.length_append, List.length_cons] at length
  exact ⟨before, after, all, fun h => unmet (List.mem_append_left _ h), fun h => unmet (List.mem_append_right _ h),
    Nat.succ.inj length.symm⟩

/-- A pollutant's own close among those of the others. -/
theorem turns_around {l : Line} {p : Pollutant} {k : Nat} {act : Pollutant → State → State}
    (others : ∀ q, q ≠ p → ∀ s, Elsewhere l p k s (act q s)) (s : State) :
    ∃ n m u, n + m = 5 * k ∧ Elsewhere l p n s u ∧ Elsewhere l p m (act p u) (inTurn Pollutant.all act s) := by
  obtain ⟨before, after, all, unmet, unmet', five⟩ := pollutants_around p
  have split : inTurn Pollutant.all act s = inTurn after act (act p (inTurn before act s)) := by
    rw [all]
    exact List.foldl_append
  refine ⟨before.length * k, after.length * k, inTurn before act s, by rw [← Nat.add_mul, five], ?_, ?_⟩
  · exact Elsewhere.inTurn (fun q hq => others q fun h => unmet (h ▸ hq)) s
  · rw [split]
    exact Elsewhere.inTurn (fun q hq => others q fun h => unmet' (h ▸ hq)) _

/-! ### What the closes leave of the accounts -/

/-- Without what block closes and saturation tests may change: a line's pollutants, saturation counts, and what a reason
posted may change. -/
def State.lessBlocks (l : Line) (s : State) : State :=
  { s.lessFeed with
    averager := s.averager.set l { s.averagerOf l with
      pollutants := PerPollutant.all PollutantState.initial
      saturation := ⟨0, 0, 0⟩ } }

/-- Without the log as well: what half-hour and day closes may change. -/
def State.lessCloses (l : Line) (s : State) : State := { s.lessBlocks l with log := [], nextEntry := 0 }

section
variable {l : Line} {b : Nat} {p : Pollutant} {s t : State}

theorem lessBlocks_of_feed (h : t.lessFeed = s.lessFeed) : t.lessBlocks l = s.lessBlocks l := by
  have averager : t.averager = s.averager := read_of_erased State.lessFeed (fun _ => rfl) h
  unfold State.lessBlocks State.averagerOf
  rw [h, averager]

theorem lessCloses_of_blocks (h : t.lessBlocks l = s.lessBlocks l) : t.lessCloses l = s.lessCloses l := by
  unfold State.lessCloses
  rw [h]

theorem lessCloses_of_notices (h : t.lessNotices = s.lessNotices) : t.lessCloses l = s.lessCloses l :=
  lessCloses_of_blocks (lessBlocks_of_feed (lessFeed_of_notices h))

theorem lessCloses_log (l : Line) (log : List LogEntry) (n : Nat) (s : State) :
    ({ s with log := log, nextEntry := n } : State).lessCloses l = s.lessCloses l := rfl

theorem lessBlocks_modPollutant (l : Line) (p : Pollutant) (f : PollutantState → PollutantState) (s : State) :
    (s.modPollutant l p f).lessBlocks l = s.lessBlocks l := by
  cases l <;> rfl

theorem lessBlocks_blockClose (l : Line) (b : Nat) (p : Pollutant) (s : State) :
    (blockClose l b p s).lessBlocks l = s.lessBlocks l := lessBlocks_modPollutant l p _ s

theorem lessBlocks_saturationTest (l : Line) (b : Nat) (r : Reagent) (s : State) :
    (saturationTest l b r s).lessBlocks l = s.lessBlocks l := by
  have put (n : Nat) : (s.modAverager l fun a => { a with saturation := a.saturation.set r n }).lessBlocks l =
      s.lessBlocks l := by
    cases l <;> rfl
  unfold saturationTest
  dsimp only
  split
  · split
    · exact (lessBlocks_of_feed (lessFeed_postReason l .saturation _)).trans (put _)
    · exact put _
  · split
    · rfl
    · exact put 0

theorem lessCloses_halfHourClose (l : Line) (b : Nat) (p : Pollutant) (s : State) :
    (halfHourClose l b p s).lessCloses l = s.lessCloses l := by
  have written (x : PollutantState) : (s.modPollutant l p fun _ => x).lessCloses l = s.lessCloses l :=
    lessCloses_of_blocks (lessBlocks_modPollutant l p _ s)
  have step := halfHourClose_step l b p s
  generalize halfHourClose l b p s = t at step
  cases step with
  | unjudged _ => exact written _
  | clear _ _ _ => exact written _
  | ended _ _ _ => exact (lessCloses_log l _ _ _).trans (written _)
  | extended _ _ _ => exact (lessCloses_log l _ _ _).trans (written _)
  | opened _ _ _ =>
    exact (lessCloses_of_notices (lessNotices_setCause ..)).trans ((lessCloses_log l _ _ _).trans (written _))

theorem lessCloses_dayClose (l : Line) (b : Nat) (p : Pollutant) (s : State) :
    (dayClose l b p s).lessCloses l = s.lessCloses l := by
  have emptied (t : State) : (t.modPollutant l p fun x => { x with ring := List.replicate 48 .empty }).lessCloses l =
      t.lessCloses l := lessCloses_of_blocks (lessBlocks_modPollutant l p _ t)
  by_cases h : s.dayAbove l p
  · rw [dayClose_of_above b h]
    exact (emptied _).trans ((lessCloses_of_notices (lessNotices_setCause ..)).trans (lessCloses_log l _ _ s))
  · rw [dayClose_of_not_above b h]
    exact emptied s

theorem averagerOf_lessCloses (l : Line) (s : State) : (s.lessCloses l).averagerOf l = { s.averagerOf l with
    pollutants := PerPollutant.all PollutantState.initial, saturation := ⟨0, 0, 0⟩ } := PerLine.get_set_self ..

theorem averagerOf_of_closes (h : t.lessCloses l = s.lessCloses l) {m : Line} (hm : m ≠ l) :
    t.averagerOf m = s.averagerOf m :=
  read_of_erased (State.lessCloses l) (read := fun s => s.averagerOf m) (fun _ => PerLine.get_set_ne _ _ hm) h

theorem nextBoundary_of_closes (h : t.lessCloses l = s.lessCloses l) :
    (t.averagerOf l).nextBoundary = (s.averagerOf l).nextBoundary :=
  read_of_erased (State.lessCloses l) (read := fun s => (s.averagerOf l).nextBoundary)
    (fun s => (congrArg Averager.nextBoundary (averagerOf_lessCloses l s)).trans rfl) h

theorem minutes_of_closes (h : t.lessCloses l = s.lessCloses l) : (t.averagerOf l).minutes = (s.averagerOf l).minutes :=
  read_of_erased (State.lessCloses l) (read := fun s => (s.averagerOf l).minutes)
    (fun s => (congrArg Averager.minutes (averagerOf_lessCloses l s)).trans rfl) h

theorem limits_of_closes (h : t.lessCloses l = s.lessCloses l) : t.limits = s.limits :=
  read_of_erased (State.lessCloses l) (fun _ => rfl) h

theorem owedTick_of_closes (h : t.lessCloses l = s.lessCloses l) : t.owedTick = s.owedTick :=
  read_of_erased (State.lessCloses l) (fun _ => rfl) h

end

/-! ### Blocks and saturation tests (R123, R124, R134) -/

/-- A pollutant's record once the block that a boundary ends has closed. -/
def State.blockRecord (s : State) (l : Line) (b : Nat) (p : Pollutant) : PollutantState :=
  { s.pollutantOf l p with
    sum := 0
    valid := 0
    means := (s.pollutantOf l p).means.set (blockPosition b)
      (blockMean (s.pollutantOf l p) (s.limit (.plant .blockMinSamples))) }

/-- The part once the boundary has moved on, the blocks are closed and the saturation tests made. -/
def State.blocksClosed (s : State) (l : Line) : State :=
  inTurn Reagent.all (saturationTest l (s.averagerOf l).nextBoundary)
    (inTurn Pollutant.all (blockClose l (s.averagerOf l).nextBoundary)
      (s.modAverager l fun a => { a with nextBoundary := (s.averagerOf l).nextBoundary + 600 }))

section
variable (s : State) (l : Line)

theorem lessBlocks_blocksClosed : (s.blocksClosed l).lessBlocks l =
    (s.modAverager l fun a => { a with nextBoundary := (s.averagerOf l).nextBoundary + 600 }).lessBlocks l :=
  (inTurn_keeps (State.lessBlocks l) _ _ (lessBlocks_saturationTest l _) _).trans
    (inTurn_keeps (State.lessBlocks l) _ _ (lessBlocks_blockClose l _) _)

theorem lessCloses_blocksClosed : (s.blocksClosed l).lessCloses l =
    (s.modAverager l fun a => { a with nextBoundary := (s.averagerOf l).nextBoundary + 600 }).lessCloses l :=
  lessCloses_of_blocks (lessBlocks_blocksClosed s l)

theorem log_blocksClosed : (s.blocksClosed l).log = s.log :=
  (read_of_erased (State.lessBlocks l) (read := State.log) (fun _ => rfl) (lessBlocks_blocksClosed s l)).trans rfl

theorem nextEntry_blocksClosed : (s.blocksClosed l).nextEntry = s.nextEntry :=
  (read_of_erased (State.lessBlocks l) (read := State.nextEntry) (fun _ => rfl) (lessBlocks_blocksClosed s l)).trans rfl

theorem limits_blocksClosed : (s.blocksClosed l).limits = s.limits :=
  (limits_of_closes (lessCloses_blocksClosed s l)).trans rfl

theorem owedTick_blocksClosed : (s.blocksClosed l).owedTick = s.owedTick :=
  (owedTick_of_closes (lessCloses_blocksClosed s l)).trans rfl

theorem averagerOf_blocksClosed {m : Line} (hm : m ≠ l) : (s.blocksClosed l).averagerOf m = s.averagerOf m :=
  (averagerOf_of_closes (lessCloses_blocksClosed s l) hm).trans
    ((State.averagerOf_modAverager ..).trans (if_neg hm))

theorem nextBoundary_blocksClosed :
    ((s.blocksClosed l).averagerOf l).nextBoundary = (s.averagerOf l).nextBoundary + 600 :=
  (nextBoundary_of_closes (lessCloses_blocksClosed s l)).trans (by rw [State.averagerOf_modAverager, if_pos rfl])

theorem minutes_blocksClosed : ((s.blocksClosed l).averagerOf l).minutes = (s.averagerOf l).minutes :=
  (minutes_of_closes (lessCloses_blocksClosed s l)).trans (by rw [State.averagerOf_modAverager, if_pos rfl])

/-- Of one pollutant, blocks and saturation tests bring its block close alone. -/
theorem blocksClosed_elsewhere (p : Pollutant) : ∃ u, Elsewhere l p 0 s u ∧
    Elsewhere l p 0 (blockClose l (s.averagerOf l).nextBoundary p u) (s.blocksClosed l) := by
  have moved : Elsewhere l p 0 s
      (s.modAverager l fun a => { a with nextBoundary := (s.averagerOf l).nextBoundary + 600 }) :=
    elsewhere_modAverager fun _ => rfl
  obtain ⟨n, m, u, zero, before, after⟩ := turns_around (l := l) (p := p) (k := 0)
    (act := blockClose l (s.averagerOf l).nextBoundary) (fun q hq t => elsewhere_blockClose _ hq t)
    (s.modAverager l fun a => { a with nextBoundary := (s.averagerOf l).nextBoundary + 600 })
  have tested := Elsewhere.inTurn (l := l) (p := p) (k := 0) (xs := Reagent.all)
    (act := saturationTest l (s.averagerOf l).nextBoundary) (fun r _ t => elsewhere_saturationTest _ r)
    (inTurn Pollutant.all (blockClose l (s.averagerOf l).nextBoundary)
      (s.modAverager l fun a => { a with nextBoundary := (s.averagerOf l).nextBoundary + 600 }))
  exact ⟨u, (moved.trans before).mono (by omega), (after.trans tested).mono (by omega)⟩

theorem pollutantOf_blocksClosed (p : Pollutant) :
    (s.blocksClosed l).pollutantOf l p = s.blockRecord l (s.averagerOf l).nextBoundary p := by
  obtain ⟨u, before, after⟩ := blocksClosed_elsewhere s l p
  rw [after.record]
  refine (State.pollutantOf_modPollutant_self u l p _).trans ?_
  rw [before.record, State.limit_congr before.limits]
  rfl

theorem sized_blocksClosed : (s.blocksClosed l).attention.causes.length = s.attention.causes.length := by
  obtain ⟨u, before, after⟩ := blocksClosed_elsewhere s l .dust
  exact after.sized.trans before.sized

end

theorem boundaryClose_eq (l : Line) (s : State) : boundaryClose l s =
    if (s.averagerOf l).nextBoundary % 86400 = 0 then
      inTurn Pollutant.all (dayClose l (s.averagerOf l).nextBoundary)
        (if (s.averagerOf l).nextBoundary % 1800 = 0 then
          halfHourCloses l (s.averagerOf l).nextBoundary (s.blocksClosed l)
        else s.blocksClosed l)
    else if (s.averagerOf l).nextBoundary % 1800 = 0 then
      halfHourCloses l (s.averagerOf l).nextBoundary (s.blocksClosed l)
    else s.blocksClosed l := rfl

end Sys2Proof.Machine
end

section
/-! SUPPORT. The half-hour closes of a line with the minutes used and the EMISSION reasons, and the day closes behind them
(R125 to R128). -/

namespace Sys2Proof.Machine

/-! ### EMISSION over a close (R113) -/

/-- EMISSION is held where the line has a reason. -/
def State.ReasonHeld (l : Line) (s : State) : Prop :=
  (s.feedOf l).reasons.isEmpty = false → (s.feedOf l).holds.emission = true

theorem ReasonSet.eq_of_isEmpty {r : ReasonSet} (h : r.isEmpty = true) : r = ⟨false, false, false⟩ := by
  obtain ⟨cap, budget, saturation⟩ := r
  simpa [ReasonSet.isEmpty, and_assoc] using h

section
variable {l : Line} {b : Nat} {p : Pollutant} {s t : State}

theorem State.ReasonHeld.of_feed (h : s.ReasonHeld l) (hf : t.feedOf l = s.feedOf l) : t.ReasonHeld l := by
  unfold State.ReasonHeld
  rw [hf]
  exact h

theorem State.ReasonHeld.postReason (h : s.ReasonHeld l) (r : EmissionReason) : (postReason l r s).ReasonHeld l := by
  intro _
  rw [emission_postReason]
  cases first : (s.feedOf l).reasons.isEmpty with
  | true => simp
  | false => simpa using h first

theorem State.ReasonHeld.postBudget (h : s.ReasonHeld l) : (postBudget l s).ReasonHeld l :=
  keeps_ite (h.postReason .budget) h

theorem feedOf_modAverager (l m : Line) (g : Averager → Averager) (s : State) :
    (s.modAverager m g).feedOf l = s.feedOf l := rfl

theorem reasons_postReason_self (l : Line) (r : EmissionReason) (s : State) :
    ((postReason l r s).feedOf l).reasons = (s.feedOf l).reasons.add r := by
  rw [reasons_postReason, if_pos rfl]

/-- A saturation test posts SATURATION or nothing. -/
theorem saturationTest_feed (l : Line) (b : Nat) (r : Reagent) (s : State) : ∃ u : State, u.feedOf l = s.feedOf l ∧
    ((saturationTest l b r s).feedOf l = u.feedOf l ∨ saturationTest l b r s = postReason l .saturation u) := by
  have put (n : Nat) := feedOf_modAverager l l (fun a => { a with saturation := a.saturation.set r n }) s
  unfold saturationTest
  dsimp only
  split
  · split
    · exact ⟨_, put _, .inr rfl⟩
    · exact ⟨_, put _, .inl rfl⟩
  · split
    · exact ⟨s, rfl, .inl rfl⟩
    · exact ⟨_, put 0, .inl rfl⟩

theorem reasonHeld_saturationTest (b : Nat) (r : Reagent) (h : s.ReasonHeld l) : (saturationTest l b r s).ReasonHeld l := by
  obtain ⟨u, same, outcome | outcome⟩ := saturationTest_feed l b r s
  · exact h.of_feed (outcome.trans same)
  · rw [outcome]
    exact (h.of_feed same).postReason .saturation

/-- The reasons that a half-hour close may post. -/
def State.halfReasons (l : Line) (s : State) : Bool × Bool := ((s.feedOf l).reasons.episodeCap, (s.feedOf l).reasons.budget)

theorem halfReasons_saturationTest (l : Line) (b : Nat) (r : Reagent) (s : State) :
    (saturationTest l b r s).halfReasons l = s.halfReasons l := by
  unfold State.halfReasons
  obtain ⟨u, same, outcome | outcome⟩ := saturationTest_feed l b r s
  · rw [outcome, same]
  · rw [outcome, reasons_postReason_self, same]
    rfl

theorem feedOf_blocksMoved (l : Line) (b : Nat) (s : State) :
    (inTurn Pollutant.all (blockClose l b) s).feedOf l = s.feedOf l :=
  inTurn_keeps (State.feedOf · l) _ (blockClose l b) (fun _ _ => rfl) s

theorem halfReasons_blocksClosed (l : Line) (s : State) : (s.blocksClosed l).halfReasons l = s.halfReasons l :=
  (inTurn_keeps (State.halfReasons l) _ _ (halfReasons_saturationTest l _) _).trans
    (congrArg (fun f : Feed => (f.reasons.episodeCap, f.reasons.budget)) (feedOf_blocksMoved l _ _))

theorem reasonHeld_blocksClosed (h : s.ReasonHeld l) : (s.blocksClosed l).ReasonHeld l :=
  inTurn_holds (fun r _ ht => reasonHeld_saturationTest _ r ht) (h.of_feed (feedOf_blocksMoved l _ _))

/-! ### The half-hour closes of a line (R125 to R127) -/

/-- The half-hour closes of a line's pollutants. -/
def State.halfHoursJudged (s : State) (l : Line) (b : Nat) : State := inTurn Pollutant.all (halfHourClose l b) s

theorem halfHourClosed_halfHoursJudged (l : Line) (b : Nat) (p : Pollutant) (s : State) :
    HalfHourClosed l b p 6 (s.judgedRecord l b p).ring s (s.halfHoursJudged l b) := by
  obtain ⟨n, m, u, five, before, after⟩ := turns_around (l := l) (p := p) (act := halfHourClose l b)
    (fun q hq => elsewhere_halfHourClose b hq) s
  have closed := ((halfHourClosed_halfHourClose l b p u).before before).elsewhere after
  rw [before.judgedRecord, show n + 1 + m = 6 by omega] at closed
  exact closed

theorem exceed_halfHoursJudged (l : Line) (b : Nat) (p : Pollutant) (s : State) :
    ((s.halfHoursJudged l b).pollutantOf l p).exceed = s.exceedCount l p := by
  obtain ⟨x, record⟩ := (halfHourClosed_halfHoursJudged l b p s).record
  rw [record]
  rfl

theorem lessCloses_halfHoursJudged (l : Line) (b : Nat) (s : State) :
    (s.halfHoursJudged l b).lessCloses l = s.lessCloses l :=
  inTurn_keeps (State.lessCloses l) _ _ (lessCloses_halfHourClose l b) s

theorem feedOf_halfHoursJudged (l : Line) (b : Nat) (s : State) : (s.halfHoursJudged l b).feedOf l = s.feedOf l :=
  inTurn_keeps (State.feedOf · l) _ _ (fun p t => feedOf_of_ground (ground_halfHourClose l b p t) l) s

/-- Whether some pollutant of the line exceeds at this close. -/
def State.exceeding (s : State) (l : Line) : Bool := Pollutant.all.any (s.exceeds l)

/-- Whether some pollutant that exceeds has done so as often as EPISODE_CAP. -/
def State.capReached (s : State) (l : Line) : Bool :=
  Pollutant.all.any fun p => s.exceeds l p && decide (s.lineLimit l .episodeCap ≤ (s.exceedCount l p : Int))

/-- The minutes used, once this close has added to them. -/
def State.minutesThen (s : State) (l : Line) : Nat :=
  if s.exceeding l then min 65535 ((s.averagerOf l).minutes + 30) else (s.averagerOf l).minutes

/-- The half-hours judged and their minutes counted. -/
def State.minutesCounted (s : State) (l : Line) (b : Nat) : State :=
  (s.halfHoursJudged l b).modAverager l fun a => { a with minutes := Nat.min 65535 (a.minutes + 30) }

theorem elsewhere_minutesCounted (l : Line) (b : Nat) (p : Pollutant) (s : State) :
    Elsewhere l p 0 (s.halfHoursJudged l b) (s.minutesCounted l b) := elsewhere_modAverager fun _ => rfl

theorem halfHourCloses_of_none (b : Nat) (h : s.exceeding l = false) : halfHourCloses l b s = s.halfHoursJudged l b := by
  have unfound : (Pollutant.all.filter (s.exceeds l)).isEmpty = true := by
    rw [List.isEmpty_iff, List.filter_eq_nil_iff]
    exact fun p hp => List.any_eq_false.mp h p hp
  exact if_pos unfound

theorem halfHourCloses_of_some (b : Nat) (h : s.exceeding l = true) : halfHourCloses l b s = postBudget l
    (if s.capReached l then postReason l .episodeCap (s.minutesCounted l b) else s.minutesCounted l b) := by
  obtain ⟨p, hp, above⟩ := List.any_eq_true.mp h
  have found : ¬ (Pollutant.all.filter (s.exceeds l)).isEmpty = true := by
    rw [List.isEmpty_iff]
    exact List.ne_nil_of_mem (List.mem_filter.mpr ⟨hp, above⟩)
  have limit : (s.minutesCounted l b).lineLimit l .episodeCap = s.lineLimit l .episodeCap :=
    State.limit_congr (limits_of_closes (lessCloses_halfHoursJudged l b s)) _
  have count (q : Pollutant) : ((s.minutesCounted l b).pollutantOf l q).exceed = s.exceedCount l q :=
    (congrArg PollutantState.exceed (elsewhere_minutesCounted l b q s).record).trans (exceed_halfHoursJudged l b q s)
  have capped : ((Pollutant.all.filter (s.exceeds l)).any fun q =>
      decide ((s.minutesCounted l b).lineLimit l .episodeCap ≤ (((s.minutesCounted l b).pollutantOf l q).exceed : Int))) =
        s.capReached l := by
    rw [List.any_filter]
    unfold State.capReached
    simp only [limit, count]
  refine (if_neg found).trans (congrArg (postBudget l) ?_)
  rw [← capped]
  rfl

/-- The episode cap and the budget judged: nothing of one pollutant's own. -/
theorem elsewhere_halfHourCloses (l : Line) (b : Nat) (p : Pollutant) (s : State) :
    Elsewhere l p 0 (s.halfHoursJudged l b) (halfHourCloses l b s) := by
  cases h : s.exceeding l with
  | false =>
    rw [halfHourCloses_of_none b h]
    exact .refl l p _
  | true =>
    rw [halfHourCloses_of_some b h]
    have counted := elsewhere_minutesCounted l b p s
    exact Elsewhere.trans (n := 0) (m := 0)
      (elsewhere_ite (fun _ => counted.trans (elsewhere_postReason .episodeCap)) fun _ => counted) elsewhere_postBudget

theorem halfHourClosed_halfHourCloses (l : Line) (b : Nat) (p : Pollutant) (s : State) :
    HalfHourClosed l b p 6 (s.judgedRecord l b p).ring s (halfHourCloses l b s) :=
  (halfHourClosed_halfHoursJudged l b p s).elsewhere (elsewhere_halfHourCloses l b p s)

/-! ### Minutes used and reasons (R113, R126, R127) -/

/-- The minutes used written to an account. -/
def State.withMinutes (s : State) (l : Line) (n : Nat) : State := s.modAverager l fun a => { a with minutes := n }

theorem lessCloses_withMinutes (l : Line) (n : Nat) (h : t.lessCloses l = s.lessCloses l) :
    (t.withMinutes l n).lessCloses l = (s.withMinutes l n).lessCloses l := by
  have commutes (u : State) : (u.withMinutes l n).lessCloses l = (u.lessCloses l).withMinutes l n := by
    cases l <;> rfl
  rw [commutes, commutes, h]

theorem lessCloses_minutesCounted (b : Nat) (h : s.exceeding l = true) :
    (s.minutesCounted l b).lessCloses l = (s.withMinutes l (s.minutesThen l)).lessCloses l := by
  have judged := lessCloses_halfHoursJudged l b s
  have minutes : s.minutesThen l = min 65535 (((s.halfHoursJudged l b).averagerOf l).minutes + 30) := by
    rw [minutes_of_closes judged]
    exact if_pos h
  rw [← lessCloses_withMinutes l _ judged, minutes]
  rfl

theorem lessCloses_halfHourCloses (l : Line) (b : Nat) (s : State) :
    (halfHourCloses l b s).lessCloses l = (s.withMinutes l (s.minutesThen l)).lessCloses l := by
  cases h : s.exceeding l with
  | false =>
    have same : s.withMinutes l (s.minutesThen l) = s := by
      unfold State.minutesThen
      rw [h]
      cases l <;> rfl
    rw [halfHourCloses_of_none b h, same]
    exact lessCloses_halfHoursJudged l b s
  | true =>
    rw [halfHourCloses_of_some b h]
    refine (lessCloses_of_blocks (lessBlocks_of_feed (lessFeed_postBudget l _))).trans ?_
    split
    · exact (lessCloses_of_blocks (lessBlocks_of_feed (lessFeed_postReason l .episodeCap _))).trans
        (lessCloses_minutesCounted b h)
    · exact lessCloses_minutesCounted b h

theorem halfReasons_of_feed (h : t.feedOf l = s.feedOf l) : t.halfReasons l = s.halfReasons l := by
  unfold State.halfReasons
  rw [h]

theorem halfReasons_postCap (l : Line) (s : State) :
    (postReason l .episodeCap s).halfReasons l = (true, (s.halfReasons l).2) := by
  unfold State.halfReasons
  rw [reasons_postReason_self]
  rfl

theorem halfReasons_postBudget (l : Line) (s : State) : (postBudget l s).halfReasons l = ((s.halfReasons l).1,
    (s.halfReasons l).2 || decide (s.lineLimit l .budget ≤ ((s.averagerOf l).minutes : Int))) := by
  unfold postBudget
  split
  · rename_i spent
    unfold State.halfReasons
    rw [reasons_postReason_self]
    simp [spent, ReasonSet.add]
  · rename_i within
    simp [within]

theorem feedOf_minutesCounted (l : Line) (b : Nat) (s : State) : (s.minutesCounted l b).feedOf l = s.feedOf l :=
  (feedOf_modAverager ..).trans (feedOf_halfHoursJudged l b s)

theorem halfReasons_halfHourCloses (l : Line) (b : Nat) (s : State) : (halfHourCloses l b s).halfReasons l =
    ((s.halfReasons l).1 || s.capReached l,
      (s.halfReasons l).2 || (s.exceeding l && decide (s.lineLimit l .budget ≤ (s.minutesThen l : Int)))) := by
  cases h : s.exceeding l with
  | false =>
    have uncapped : s.capReached l = false := by
      refine List.any_eq_false.mpr fun p hp => ?_
      simp [List.any_eq_false.mp h p hp]
    rw [halfHourCloses_of_none b h, halfReasons_of_feed (feedOf_halfHoursJudged l b s), uncapped]
    simp
  | true =>
    have counted := lessCloses_minutesCounted b h
    have posted : (if s.capReached l then postReason l .episodeCap (s.minutesCounted l b) else
        s.minutesCounted l b).lessCloses l = (s.withMinutes l (s.minutesThen l)).lessCloses l := by
      split
      · exact (lessCloses_of_blocks (lessBlocks_of_feed (lessFeed_postReason l .episodeCap _))).trans counted
      · exact counted
    have capped : (if s.capReached l then postReason l .episodeCap (s.minutesCounted l b) else
        s.minutesCounted l b).halfReasons l = ((s.halfReasons l).1 || s.capReached l, (s.halfReasons l).2) := by
      have same := halfReasons_of_feed (feedOf_minutesCounted l b s)
      cases s.capReached l with
      | true =>
        rw [if_pos rfl, halfReasons_postCap, same, Bool.or_true]
      | false =>
        rw [if_neg nofun, same, Bool.or_false]
    rw [halfHourCloses_of_some b h, halfReasons_postBudget, capped, minutes_of_closes posted]
    unfold State.lineLimit
    rw [State.limit_congr (limits_of_closes posted)]
    have minutes : ((s.withMinutes l (s.minutesThen l)).averagerOf l).minutes = s.minutesThen l := by
      rw [State.withMinutes, State.averagerOf_modAverager, if_pos rfl]
    rw [minutes]
    rfl

theorem State.ReasonHeld.halfHourCloses (h : s.ReasonHeld l) (b : Nat) : (halfHourCloses l b s).ReasonHeld l := by
  have counted := h.of_feed (feedOf_minutesCounted l b s)
  cases above : s.exceeding l with
  | false =>
    rw [halfHourCloses_of_none b above]
    exact h.of_feed (feedOf_halfHoursJudged l b s)
  | true =>
    rw [halfHourCloses_of_some b above]
    exact (keeps_ite (counted.postReason .episodeCap) counted).postBudget

/-! ### The day closes of a line (R128) -/

theorem lessCloses_daysClosed (l : Line) (b : Nat) (s : State) :
    (inTurn Pollutant.all (dayClose l b) s).lessCloses l = s.lessCloses l :=
  inTurn_keeps (State.lessCloses l) _ _ (lessCloses_dayClose l b) s

theorem feedOf_daysClosed (l : Line) (b : Nat) (s : State) :
    (inTurn Pollutant.all (dayClose l b) s).feedOf l = s.feedOf l :=
  inTurn_keeps (State.feedOf · l) _ _ (fun p t => feedOf_of_ground (ground_dayClose l b p t) l) s

theorem HalfHourClosed.daysClosed {n : Nat} {ring : List RingSlot} (h : HalfHourClosed l b p n ring s t) :
    HalfHourClosed l b p (n + 6) (List.replicate 48 .empty) s (inTurn Pollutant.all (Machine.dayClose l b) t) := by
  obtain ⟨k, m, u, five, before, after⟩ := turns_around (l := l) (p := p) (act := Machine.dayClose l b)
    (fun q hq => elsewhere_dayClose b hq) t
  have closed := (h.elsewhere before).dayClose.elsewhere after
  rwa [show n + k + 1 + m = n + 6 by omega] at closed

/-- A daily value above its limit stands in the log after the day closes of a log with room for them. -/
theorem dailyEntry_mem_daysClosed (b : Nat) (above : s.dayAbove l p) (room : s.log.length + 6 ≤ 32) :
    ∃ n, dailyEntry l p b n (s.pollutantOf l p).ring ∈ (inTurn Pollutant.all (dayClose l b) s).log := by
  obtain ⟨k, m, u, five, before, after⟩ := turns_around (l := l) (p := p) (act := dayClose l b)
    (fun q hq => elsewhere_dayClose b hq) s
  obtain ⟨t, own, logged, closed⟩ := dayClose_elsewhere l p p b u
  have same : u.dayAbove l p := by
    unfold State.dayAbove State.lineLimit
    rw [before.record, State.limit_congr before.limits, State.limit_congr before.limits]
    exact above
  obtain ⟨n, entry⟩ := logged same
  rw [before.record] at entry
  have grown := before.log.grown
  have grown' := own.log.grown
  rw [closed] at after
  exact ⟨n, after.log.closed (show t.log.length + m ≤ 32 by omega) _ entry nofun⟩

end

end Sys2Proof.Machine
end

section
/-! SUPPORT. A boundary close that ends a half-hour, for a line and for one of its pollutants, and the event that it is (R123
to R130). -/

namespace Sys2Proof.Machine

section
variable {l : Line} {b : Nat} {p : Pollutant} {s t : State}

/-! ### Closes with nothing to log -/

/-- A line whose half-hour values lie within their limits, and that has no episode open. -/
def State.quiet (s : State) (l : Line) : Prop :=
  ∀ p, s.exceeds l p = false ∧ (s.pollutantOf l p).openEpisode = none

theorem exceeding_of_quiet (h : s.quiet l) : s.exceeding l = false :=
  List.any_eq_false.mpr fun p _ => by simp [(h p).1]

/-- A half-hour close on a quiet line writes nothing but its pollutant's record, and leaves the line quiet. -/
theorem halfHourClose_of_quiet (b : Nat) (p : Pollutant) (h : s.quiet l) :
    halfHourClose l b p s = s.judged l b p ∧ (s.judged l b p).quiet l := by
  have own : halfHourClose l b p s = s.judged l b p := by
    obtain ⟨within, shut⟩ := h p
    have step := halfHourClose_step l b p s
    generalize halfHourClose l b p s = t at step
    cases step with
    | unjudged _ => rfl
    | clear _ _ _ => rfl
    | ended _ _ episode => exact absurd (shut.symm.trans episode) nofun
    | extended _ above _ => exact absurd (within.symm.trans above) nofun
    | opened _ above _ => exact absurd (within.symm.trans above) nofun
  refine ⟨own, fun q => ?_⟩
  obtain ⟨within, shut⟩ := h q
  by_cases hq : p = q
  · subst hq
    refine ⟨?_, (congrArg PollutantState.openEpisode (pollutantOf_judged l b p s)).trans shut⟩
    rw [exceeds_eq, State.halfValue, pollutantOf_judged]
    rfl
  · have others : Elsewhere l q 0 s (s.judged l b p) := elsewhere_modPollutant _ hq
    exact ⟨others.exceeds.trans within, (congrArg PollutantState.openEpisode others.record).trans shut⟩

theorem halfHourCloses_of_quiet (b : Nat) (h : s.quiet l) :
    (halfHourCloses l b s).log = s.log ∧ (halfHourCloses l b s).nextEntry = s.nextEntry := by
  rw [halfHourCloses_of_none b (exceeding_of_quiet h)]
  obtain ⟨log, next, -⟩ := inTurn_holds (P := fun t => t.log = s.log ∧ t.nextEntry = s.nextEntry ∧ t.quiet l)
    (xs := Pollutant.all) (act := halfHourClose l b) (fun p t ⟨log, next, quiet⟩ => by
      obtain ⟨own, still⟩ := halfHourClose_of_quiet b p quiet
      rw [own]
      exact ⟨log, next, still⟩) ⟨rfl, rfl, h⟩
  exact ⟨log, next⟩

/-! ### What a half-hour is judged by, once its blocks are closed -/

/-- The half-hour value that a boundary forms. -/
def State.valueAt (s : State) (l : Line) (b : Nat) (p : Pollutant) : Option Nat :=
  halfHourValue (s.blockRecord l b p).means

theorem halfValue_blocksClosed (s : State) (l : Line) (p : Pollutant) :
    (s.blocksClosed l).halfValue l p = s.valueAt l (s.averagerOf l).nextBoundary p := by
  unfold State.halfValue State.valueAt
  rw [pollutantOf_blocksClosed]

theorem exceeds_blocksClosed (s : State) (l : Line) (p : Pollutant) : (s.blocksClosed l).exceeds l p =
    (s.valueAt l (s.averagerOf l).nextBoundary p).any fun v => decide (s.lineLimit l (.hhLimit p) < (v : Int)) := by
  rw [exceeds_eq, halfValue_blocksClosed]
  unfold State.lineLimit
  rw [State.limit_congr (limits_blocksClosed s l)]

theorem openEpisode_blocksClosed (s : State) (l : Line) (p : Pollutant) :
    ((s.blocksClosed l).pollutantOf l p).openEpisode = (s.pollutantOf l p).openEpisode := by
  rw [pollutantOf_blocksClosed]
  rfl

theorem judgedRecord_blocksClosed (s : State) (l : Line) (p : Pollutant) :
    (s.blocksClosed l).judgedRecord l (s.averagerOf l).nextBoundary p = { s.pollutantOf l p with
      sum := 0
      valid := 0
      means := [none, none, none]
      ring := ringWith (s.averagerOf l).nextBoundary (s.valueAt l (s.averagerOf l).nextBoundary p) (s.pollutantOf l p).ring
      exceed := (s.blocksClosed l).exceedCount l p } := by
  unfold State.judgedRecord
  rw [halfValue_blocksClosed, pollutantOf_blocksClosed]
  rfl

theorem exceedCount_blocksClosed (s : State) (l : Line) (p : Pollutant) : (s.blocksClosed l).exceedCount l p =
    if (s.valueAt l (s.averagerOf l).nextBoundary p).isNone then (s.pollutantOf l p).exceed
    else if (s.blocksClosed l).exceeds l p then satSucc 255 (s.pollutantOf l p).exceed
    else 0 := by
  unfold State.exceedCount
  rw [halfValue_blocksClosed, pollutantOf_blocksClosed]
  rfl

/-! ### The close that ends a half-hour -/

/-- The half-hour closes of a boundary, behind the closes of its blocks. -/
def State.halfHoursClosed (s : State) (l : Line) : State :=
  halfHourCloses l (s.averagerOf l).nextBoundary (s.blocksClosed l)

theorem boundaryClose_of_block (h : (s.averagerOf l).nextBoundary % 1800 ≠ 0) :
    boundaryClose l s = s.blocksClosed l := by
  have noDay : (s.averagerOf l).nextBoundary % 86400 ≠ 0 := by omega
  rw [boundaryClose_eq, if_neg noDay, if_neg h]

theorem boundaryClose_of_halfHour (h : (s.averagerOf l).nextBoundary % 1800 = 0) : boundaryClose l s =
    if (s.averagerOf l).nextBoundary % 86400 = 0 then
      inTurn Pollutant.all (dayClose l (s.averagerOf l).nextBoundary) (s.halfHoursClosed l)
    else s.halfHoursClosed l := by
  rw [boundaryClose_eq, if_pos h]
  rfl

theorem lessCloses_boundaryClose (h : (s.averagerOf l).nextBoundary % 1800 = 0) : (boundaryClose l s).lessCloses l =
    ((s.blocksClosed l).withMinutes l ((s.blocksClosed l).minutesThen l)).lessCloses l := by
  rw [boundaryClose_of_halfHour h]
  split
  · exact (lessCloses_daysClosed l _ _).trans (lessCloses_halfHourCloses l _ _)
  · exact lessCloses_halfHourCloses l _ _

theorem feedOf_boundaryClose (h : (s.averagerOf l).nextBoundary % 1800 = 0) :
    (boundaryClose l s).feedOf l = (s.halfHoursClosed l).feedOf l := by
  rw [boundaryClose_of_halfHour h]
  split
  · exact feedOf_daysClosed l _ _
  · rfl

/-- The ring of a pollutant behind a boundary close: EMPTY at the end of a day (R128). -/
def ringThen (b : Nat) (ring : List RingSlot) : List RingSlot :=
  if b % 86400 = 0 then List.replicate 48 .empty else ring

theorem halfHourClosed_boundaryClose (p : Pollutant) (h : (s.averagerOf l).nextBoundary % 1800 = 0) :
    HalfHourClosed l (s.averagerOf l).nextBoundary p 12
      (ringThen (s.averagerOf l).nextBoundary
        ((s.blocksClosed l).judgedRecord l (s.averagerOf l).nextBoundary p).ring)
      (s.blocksClosed l) (boundaryClose l s) := by
  have closed := halfHourClosed_halfHourCloses l (s.averagerOf l).nextBoundary p (s.blocksClosed l)
  rw [boundaryClose_of_halfHour h]
  unfold ringThen
  split
  · exact closed.daysClosed
  · exact closed.elsewhere ((Elsewhere.refl l p _).mono (Nat.zero_le 6))

theorem log_boundaryClose_of_quiet (h : (s.averagerOf l).nextBoundary % 1800 = 0)
    (noDay : (s.averagerOf l).nextBoundary % 86400 ≠ 0) (quiet : (s.blocksClosed l).quiet l) :
    (boundaryClose l s).log = s.log ∧ (boundaryClose l s).nextEntry = s.nextEntry := by
  rw [boundaryClose_of_halfHour h, if_neg noDay]
  obtain ⟨log, next⟩ := halfHourCloses_of_quiet (s.averagerOf l).nextBoundary quiet
  exact ⟨log.trans (log_blocksClosed s l), next.trans (nextEntry_blocksClosed s l)⟩

/-- A daily value above its limit at a boundary that ends a day, in a log with room for all that the close may add. -/
theorem dailyEntry_mem_boundaryClose {ring : List RingSlot} (h : (s.averagerOf l).nextBoundary % 86400 = 0)
    (formed : ((s.blocksClosed l).judgedRecord l (s.averagerOf l).nextBoundary p).ring = ring)
    (valued : 1 ≤ (ringValues ring).length) (enough : s.limit (.plant .dayMinValid) ≤ ((ringValues ring).length : Int))
    (above : s.lineLimit l (.dayLimit p) < (dayMean ring : Int)) (room : s.log.length ≤ 20) :
    ∃ n, dailyEntry l p (s.averagerOf l).nextBoundary n ring ∈ (boundaryClose l s).log := by
  have closed := halfHourClosed_halfHourCloses l (s.averagerOf l).nextBoundary p (s.blocksClosed l)
  have same : (s.halfHoursClosed l).limits = s.limits :=
    (limits_of_closes (lessCloses_halfHourCloses l _ _)).trans (limits_blocksClosed s l)
  have record : ((s.halfHoursClosed l).pollutantOf l p).ring = ring := by
    obtain ⟨x, record⟩ := closed.record
    exact (congrArg PollutantState.ring record).trans formed
  have day : (s.halfHoursClosed l).dayAbove l p := by
    unfold State.dayAbove State.lineLimit
    rw [record, State.limit_congr same, State.limit_congr same]
    exact ⟨valued, enough, above⟩
  have grown : (s.halfHoursClosed l).log.length ≤ s.log.length + 6 := log_blocksClosed s l ▸ closed.grown
  rw [boundaryClose_of_halfHour (by omega), if_pos h, ← record]
  exact dailyEntry_mem_daysClosed _ day (by omega)

/-! ### The event (R123, R180) -/

/-- `t` is the part behind the event that is a boundary close of `s`: as the close leaves it, but for its NOTICEs. -/
structure BoundaryEvent (l : Line) (s t : State) : Prop where
  rest : t.lessNotices = (boundaryClose l s).lessNotices
  told : (t.cause .episodeOpened).status = ((boundaryClose l s).cause .episodeOpened).status

/-- A boundary close at a unit's share of a tick is one event there. -/
theorem exec_boundaryClose (released : s.resetAsserted = false) (owed : .averager l ∈ s.owedTick)
    (reached : (s.averagerOf l).nextBoundary ≤ s.plantTime) :
    ∃ t, exec (.boundaryClose l) s = .next t ∧
      BoundaryEvent l { s with owedTick := s.owedTick.erase (.averager l) } t := by
  generalize hu : { s with owedTick := s.owedTick.erase (.averager l) } = u
  have due : averagerTick l u = noticesSince u (boundaryClose l u) := by
    rw [← hu]
    exact if_pos reached
  have taken : boundaryReached l s = noticesSince u (noticesSince u (boundaryClose l u)) := by
    refine (tickBrings_of_owed released owed (by simpa using reached)).trans ?_
    rw [hu, ← due]
    rfl
  refine ⟨_, congrArg Host.Outcome.next taken, ?_, ?_⟩
  · exact (lessNotices_noticesSince u _).trans (lessNotices_noticesSince u _)
  · exact (noticesSince_keeps u _ (by decide) CauseRecord.status fun _ => rfl).trans
      (noticesSince_keeps u _ (by decide) CauseRecord.status fun _ => rfl)

namespace BoundaryEvent
variable (h : BoundaryEvent l s t)
include h

theorem log : t.log = (boundaryClose l s).log := read_of_erased State.lessNotices (fun _ => rfl) h.rest

theorem pollutantOf (p : Pollutant) : t.pollutantOf l p = (boundaryClose l s).pollutantOf l p :=
  read_of_erased (read := (State.pollutantOf · l p)) State.lessNotices (fun _ => rfl) h.rest

/-! One that ends no half-hour. -/

section
variable (block : (s.averagerOf l).nextBoundary % 1800 ≠ 0)
include block

theorem lessBlocks_of_block : t.lessBlocks l = (s.blocksClosed l).lessBlocks l :=
  boundaryClose_of_block block ▸ lessBlocks_of_feed (lessFeed_of_notices h.rest)

theorem log_of_block : t.log = s.log :=
  h.log.trans (boundaryClose_of_block block ▸ log_blocksClosed s l)

theorem pollutantOf_of_block (p : Pollutant) :
    t.pollutantOf l p = s.blockRecord l (s.averagerOf l).nextBoundary p :=
  (h.pollutantOf p).trans (boundaryClose_of_block block ▸ pollutantOf_blocksClosed s l p)

end

/-! One that ends a half-hour. -/

section
variable (half : (s.averagerOf l).nextBoundary % 1800 = 0)
include half

theorem lessCloses : t.lessCloses l =
    ((s.blocksClosed l).withMinutes l ((s.blocksClosed l).minutesThen l)).lessCloses l :=
  (lessCloses_of_notices h.rest).trans (lessCloses_boundaryClose half)

theorem nextBoundary : (t.averagerOf l).nextBoundary = (s.averagerOf l).nextBoundary + 600 := by
  rw [nextBoundary_of_closes (h.lessCloses half), State.withMinutes, State.averagerOf_modAverager, if_pos rfl]
  exact nextBoundary_blocksClosed s l

theorem minutes : (t.averagerOf l).minutes = (s.blocksClosed l).minutesThen l := by
  rw [minutes_of_closes (h.lessCloses half), State.withMinutes, State.averagerOf_modAverager, if_pos rfl]

theorem averagerOf {m : Line} (hm : m ≠ l) : t.averagerOf m = s.averagerOf m := by
  rw [averagerOf_of_closes (h.lessCloses half) hm, State.withMinutes, State.averagerOf_modAverager, if_neg hm]
  exact averagerOf_blocksClosed s l hm

theorem owedTick : t.owedTick = s.owedTick :=
  (owedTick_of_closes (h.lessCloses half)).trans (owedTick_blocksClosed s l)

theorem halfHourClosed (p : Pollutant) :
    HalfHourClosed l (s.averagerOf l).nextBoundary p 12
      (ringThen (s.averagerOf l).nextBoundary
        ((s.blocksClosed l).judgedRecord l (s.averagerOf l).nextBoundary p).ring)
      (s.blocksClosed l) t :=
  (halfHourClosed_boundaryClose p half).noticed h.rest h.told

theorem feedOf : t.feedOf l = (s.halfHoursClosed l).feedOf l :=
  (read_of_erased (read := (State.feedOf · l)) State.lessNotices (fun _ => rfl) h.rest).trans
    (feedOf_boundaryClose half)

theorem halfReasons : t.halfReasons l = ((s.halfReasons l).1 || (s.blocksClosed l).capReached l,
    (s.halfReasons l).2 || ((s.blocksClosed l).exceeding l &&
      decide (s.lineLimit l .budget ≤ ((s.blocksClosed l).minutesThen l : Int)))) := by
  have limit : (s.blocksClosed l).lineLimit l .budget = s.lineLimit l .budget :=
    State.limit_congr (limits_blocksClosed s l) _
  rw [halfReasons_of_feed (h.feedOf half), State.halfHoursClosed, halfReasons_halfHourCloses,
    halfReasons_blocksClosed, limit]

theorem reasonHeld (start : s.ReasonHeld l) : t.ReasonHeld l :=
  ((reasonHeld_blocksClosed start).halfHourCloses _).of_feed (h.feedOf half)

theorem log_of_quiet (noDay : (s.averagerOf l).nextBoundary % 86400 ≠ 0) (quiet : (s.blocksClosed l).quiet l) :
    t.log = s.log ∧ t.nextEntry = s.nextEntry := by
  obtain ⟨log, next⟩ := log_boundaryClose_of_quiet half noDay quiet
  exact ⟨h.log.trans log, (read_of_erased State.lessNotices (fun _ => rfl) h.rest).trans next⟩

end

end BoundaryEvent

end

end Sys2Proof.Machine
end

section
/-! The statement on boundary closes. -/

namespace Sys2Proof.Machine

/-- Settles O23: the closes of the others leave a pollutant's record and its OPEN entry; a reason posted and a NOTICE built
leave the averagers and the log. -/
theorem boundaryCloseEffect : Obligations.BoundaryCloseEffect := by
  constructor
  · intro l s released owed reached block
    obtain ⟨t, executed, event⟩ := exec_boundaryClose released owed reached
    have closes := lessCloses_of_blocks (event.lessBlocks_of_block block)
    exact ⟨t, executed, (nextBoundary_of_closes closes).trans (nextBoundary_blocksClosed _ l),
      (minutes_of_closes closes).trans (minutes_blocksClosed _ l),
      fun m hm => (averagerOf_of_closes closes hm).trans (averagerOf_blocksClosed _ l hm),
      event.log_of_block block, (owedTick_of_closes closes).trans (owedTick_blocksClosed _ l),
      event.pollutantOf_of_block block⟩
  · intro l s released owed reached half b old blocks value high ring day exceeding counted minutes
    obtain ⟨t, executed, event⟩ := exec_boundaryClose released owed reached
    set u : State := { s with owedTick := s.owedTick.erase (.averager l) }
    have values (p : Pollutant) : (u.blocksClosed l).halfValue l p = value p := halfValue_blocksClosed u l p
    have highs (p : Pollutant) : (u.blocksClosed l).exceeds l p = high p := exceeds_blocksClosed u l p
    have counts (p : Pollutant) : (u.blocksClosed l).exceedCount l p = counted p := by
      rw [exceedCount_blocksClosed, highs]
      rfl
    have rings (p : Pollutant) : ((u.blocksClosed l).judgedRecord l b p).ring = ring p :=
      congrArg PollutantState.ring (judgedRecord_blocksClosed u l p)
    have above : (u.blocksClosed l).exceeding l = exceeding := congrArg Pollutant.all.any (funext highs)
    have used : (u.blocksClosed l).minutesThen l = minutes := by
      rw [State.minutesThen, above, minutes_blocksClosed]
      rfl
    have capped : (u.blocksClosed l).capReached l =
        Pollutant.all.any fun p => high p && decide (s.lineLimit l .episodeCap ≤ (counted p : Int)) := by
      have limit : (u.blocksClosed l).lineLimit l .episodeCap = s.lineLimit l .episodeCap :=
        State.limit_congr (limits_blocksClosed u l) _
      simp only [State.capReached, highs, counts, limit]
    have reasons := event.halfReasons half
    rw [above, used, capped] at reasons
    refine ⟨t, executed, event.nextBoundary half, (event.minutes half).trans used, fun m => event.averagerOf half,
      event.owedTick half, fun p => ?_, fun quiet noDay => ?_, congrArg Prod.fst reasons, congrArg Prod.snd reasons,
      fun unposted posted => ?_⟩
    · have closed : HalfHourClosed l b p 12 (ringThen b (ring p)) (u.blocksClosed l) t :=
        rings p ▸ event.halfHourClosed half p
      obtain ⟨⟨x, record⟩, -, unjudged, within, opened, extended⟩ := closed
      have was : ((u.blocksClosed l).pollutantOf l p).openEpisode = (old p).openEpisode := openEpisode_blocksClosed u l p
      have logged : (u.blocksClosed l).log = s.log := log_blocksClosed u l
      have sized : (u.blocksClosed l).attention.causes.length = s.attention.causes.length := sized_blocksClosed u l
      simp only [values, highs, was, logged, sized] at unjudged within opened extended
      refine ⟨?_, unjudged, fun formed held => ?_, fun v formed above => ⟨opened v formed above, fun n was => ?_⟩,
        fun midnight valued enough above room => ?_⟩
      · have judged : (u.blocksClosed l).judgedRecord l b p = _ := judgedRecord_blocksClosed u l p
        rw [record, judged, counts]
        rfl
      · obtain ⟨shut, ended⟩ := within formed held
        exact ⟨shut, fun h => (ended h).imp_right fun entry room => entry (by omega)⟩
      · obtain ⟨episode, entry⟩ := extended v formed above n was
        exact ⟨episode, fun e he ho => e.extended_of_open ho ▸ entry e he ho⟩
      · rw [event.log]
        exact dailyEntry_mem_boundaryClose (s := u) midnight (rings p) valued enough above room
    · refine event.log_of_quiet half noDay fun p => ?_
      rw [highs, openEpisode_blocksClosed]
      exact quiet p
    · have start : u.ReasonHeld l := fun held => absurd ((congrArg ReasonSet.isEmpty unposted).symm.trans held) nofun
      exact event.reasonHeld half start (Bool.eq_false_iff.mpr fun empty => posted (ReasonSet.eq_of_isEmpty empty))

end Sys2Proof.Machine
end
